-- ==== Sys2Proof/Word.lean ====
section
/-! DEFINITION. The word types of the machine and their plainest arithmetic. -/

namespace Sys2Proof

/-- A 64-bit scalar value (R40). -/
abbrev Word := BitVec 64
/-- A byte. -/
abbrev Byte := BitVec 8
/-- A 2,048-bit vector value (R41, R162). -/
abbrev Vec := BitVec 2048

/-- Field of `n` bits of the number `w` from bit `lo` upward (R2). -/
def fld (w lo n : Nat) : Nat := w / 2 ^ lo % 2 ^ n

/-- Bit `i` of the number `w`. -/
def bitOf (w i : Nat) : Bool := w / 2 ^ i % 2 == 1

/-- A Boolean as a number. -/
def b2n (b : Bool) : Nat := if b then 1 else 0

/-- The number as two's complement of `n` bits, read as an integer (R2). -/
def sInt (n w : Nat) : Int := if w % 2 ^ n < 2 ^ (n - 1) then (w % 2 ^ n : Int) else (w % 2 ^ n : Int) - 2 ^ n

/-- Element `j` of width `w` of the bits `x` (R162). -/
def lane (w : Nat) {n : Nat} (x : BitVec n) (j : Nat) : Nat := (x >>> (w * j)).toNat % 2 ^ w

/-- The number whose `w`-bit digits, lowest first, are the list. -/
def ofLanes (w : Nat) : List Nat → Nat
  | [] => 0
  | x :: xs => x % 2 ^ w + 2 ^ w * ofLanes w xs

/-- The `n` low bytes of `x`, lowest first (R2, little-endian). -/
def toBytes : Nat → Nat → List Byte
  | 0, _ => []
  | n + 1, x => BitVec.ofNat 8 x :: toBytes n (x / 256)

/-- The number whose bytes, lowest first, are the list (R2). -/
def ofBytes : List Byte → Nat
  | [] => 0
  | b :: bs => b.toNat + 256 * ofBytes bs

end Sys2Proof
end

