-- ==== Sys2Proof/Config.lean ====
section
/-! DEFINITION. What the spec leaves to the implementation: constants without a body, so that nothing can be
proved of their values. Each is named in an entry of notes/assumptions. -/

namespace Sys2Proof.Config

/-- Free latency: the ticks that the `n`-th access of unstated duration takes beyond the least (entry 5). -/
opaque lat : Nat → Nat
/-- Free choice: the `n`-th choice among outcomes that the spec allows (entries 6 and 7). -/
opaque pick : Nat → Nat
/-- What the fuses of cluster `c` disable: its `i`-th disabled slot, counted among those still enabled (R21; entry 12). -/
opaque fuse : Nat → Nat → Nat
/-- Hash that gives a line its home: partition and bits [51:7] of the GVA (R220; entry 84). -/
opaque homeHash : Nat → Nat → Nat
/-- Set of a slice that holds a physical line (R12; entry 84). -/
opaque sliceSet : Nat → Nat
/-- Input port, of the sixteen of its side, by which the requests of a core reach a slice (R221; entry 84). -/
opaque slicePort : Nat → Nat → Nat
/-- Whether the `n`-th visit or eviction finds an uncorrectable error (R27-R29; entry 85). -/
opaque upset : Nat → Bool
/-- Whether something of unstated duration that may go on in a tick does so: the tick, and what it is (entry 5). -/
opaque goes : Nat → Nat → Bool
/-- Whether a station fails the CRC of the column-0 beat of a tick (R365; entry 86). -/
opaque crcFails : Nat → Nat → Bool
/-- Retries that the `n`-th beat on columns 1-14 exhausts: whether it is lost for good (R27, R356; entry 86). -/
opaque beatLost : Nat → Bool
/-- Times that the `n`-th beat on columns 1-14 fails its CRC before it is received (R356; entry 86). -/
opaque retries : Nat → Nat
/-- The root firmware image that Ewester finds at power-on (R435; entry 10). -/
opaque firmwareImage : List Byte
/-- Its public key, its signature and its security version (R435; entry 10). -/
opaque firmwareKey : List Byte
opaque firmwareSignature : List Byte
opaque firmwareVersion : Nat
/-- The key hash fused in the root die, and the fused counter of security versions (R435; entry 10). -/
opaque fusedKeyHash : BitVec 512
opaque fusedCounter : Nat
/-- ML-DSA-65 verification: public key, digest, signature (R435; entry 10). -/
opaque verifies : List Byte → BitVec 512 → List Byte → Bool
/-- Whether a core passes its built-in self-test at bring-up step 7 (R23; entry 12). -/
opaque selfTestPasses : Nat → Nat → Bool
/-- STANDCFG as the root firmware reads it from the board straps (R408; entry 12). -/
opaque straps : Word
/-- TIME of the stand master when a member device loads it (R23, R420; entry 12). -/
opaque masterTime : Nat
/-- SHAKE256 of a byte string, 512 bits (R435, R436; entry 10). -/
opaque shake256 : List Byte → BitVec 512
/-- ML-DSA-65 signature of a byte string under the device key: 3,309 bytes (R437; entry 10). -/
opaque signature : List Byte → BitVec 26472

end Sys2Proof.Config
end

