-- ==== Sys2Proof/Syntax.lean ====
section
/-! DEFINITION. The instructions and events of the ZH-1296: one constructor of `Instr` for each row of the
opcode table. Slot instructions carry the fields of their format (R49); events carry what they act on. -/

namespace Sys2Proof

/-- Guard field (R36): negate bit and predicate or mask index. -/
structure Guard where
  neg : Bool
  idx : Fin 8
  deriving DecidableEq, Repr

/-- The never-executing guard 0b1000 (R39). -/
def Guard.isNever (g : Guard) : Bool := g.neg && g.idx.val == 0

/-- Scalar source of R40: register, latch, or 4-bit signed immediate. -/
inductive Src where
  | s (r : Fin 64)
  | l (n : Fin 12)
  | imm (v : BitVec 4)
  deriving DecidableEq, Repr

/-- Vector operand of R41: v register, feed register, latch, or code 63. -/
inductive VOp where
  | v (r : Fin 32)
  | f (r : Fin 8)
  | l (n : Fin 12)
  | none
  deriving DecidableEq, Repr

/-- Which of the two scalar slots a scalar instruction stands in (R55). -/
inductive ScalarSlot where
  | s0 | s1
  deriving DecidableEq, Repr

/-- Scope codes (R50). -/
inductive Scope where
  | core | cluster | ply | stack | device | stand
  deriving DecidableEq, Repr

/-- Order codes (R50). -/
inductive Order where
  | rlx | acq | rel | ar
  deriving DecidableEq, Repr

/-- Element types (R51). -/
inductive ElemT where
  | f32 | bf16 | f16 | i32 | i16 | i8
  deriving DecidableEq, Repr

/-- Block formats of VQNT and VSCL (R51). -/
inductive BlkT where
  | e4m3 | e5m2 | e2m1
  deriving DecidableEq, Repr

/-- Conversion formats (R51). -/
inductive CvtT where
  | f32 | f16 | bf16 | e4m3 | e5m2 | e2m1 | i4 | i8 | i16 | i32 | ui4 | ui8 | ui16 | ui32 | e8m0
  deriving DecidableEq, Repr

/-- Rounding modes (R142). -/
inductive RMode where
  | rne | rz | rdn | rup | rsr
  deriving DecidableEq, Repr

/-- Conditions of CMP (R49). -/
inductive Cond where
  | eq | ne | lt | le | gt | ge | ltu | leu | gtu | geu
  deriving DecidableEq, Repr

/-- Conditions of VCMP and VCMPU (R50). -/
inductive VCond where
  | eq | ne | lt | le | gt | ge | un
  deriving DecidableEq, Repr

/-- Reduction operations of VRED (R181). -/
inductive RedOp where
  | add | max | min | amax
  deriving DecidableEq, Repr

/-- Operations of ATOM (R234). -/
inductive AtomOp where
  | add | min | max | and | or | xor | xchg
  deriving DecidableEq, Repr

/-- Widths and extensions of scalar loads (R246). -/
inductive LoadW where
  | b | bu | h | hu | w | wu | d
  deriving DecidableEq, Repr

/-- Widths of scalar stores (R246). -/
inductive StoreW where
  | b | h | w | d
  deriving DecidableEq, Repr

/-- Direction of an m operand (R48). -/
inductive Dir where
  | row | col | dia | adia
  deriving DecidableEq, Repr

/-- An m operand: register and direction (R48). -/
structure MOp where
  dir : Dir
  m : Fin 8
  deriving DecidableEq, Repr

/-- Handle states (R276). -/
inductive HState where
  | free | filling | full | draining
  deriving DecidableEq, Repr

/-- Format REG with destination and two sources. -/
structure RegF where
  g : Guard
  wb : Bool
  d : Fin 64
  a : Src
  b : Src
  deriving DecidableEq, Repr

/-- Format REG with destination and one source; SRCB is zero. -/
structure RegU where
  g : Guard
  wb : Bool
  d : Fin 64
  a : Src
  deriving DecidableEq, Repr

/-- Format REG without destination, two sources; WB and DST are zero. -/
structure RegN where
  g : Guard
  a : Src
  b : Src
  deriving DecidableEq, Repr

/-- Format REG without destination, one source. -/
structure RegO where
  g : Guard
  a : Src
  deriving DecidableEq, Repr

/-- Format WIM. -/
structure WimF where
  g : Guard
  wb : Bool
  d : Fin 64
  imm : BitVec 14
  deriving DecidableEq, Repr

/-- Format AIM. -/
structure AimF where
  g : Guard
  wb : Bool
  d : Fin 64
  a : Src
  imm : BitVec 7
  deriving DecidableEq, Repr

/-- Format CMP. -/
structure CmpF where
  g : Guard
  cond : Cond
  pd : Fin 8
  a : Src
  b : Src
  deriving DecidableEq, Repr

/-- Format PRD with two sources. -/
structure PrdF where
  g : Guard
  pd : Fin 8
  pa : Fin 8
  pb : Fin 8
  deriving DecidableEq, Repr

/-- Format PRD with one source; PB is zero. -/
structure PrdU where
  g : Guard
  pd : Fin 8
  pa : Fin 8
  deriving DecidableEq, Repr

/-- Format SLP. -/
structure SlpF where
  g : Guard
  ps : Fin 8
  d : Fin 64
  a : Fin 64
  b : Fin 64
  deriving DecidableEq, Repr

/-- Format SYS. -/
structure SysF where
  g : Guard
  reg : Fin 64
  sr : Fin 4096
  deriving DecidableEq, Repr

/-- Format MEM, a scalar load. -/
structure MemL where
  g : Guard
  wb : Bool
  reg : Fin 64
  base : Fin 64
  ac : Fin 4
  off : BitVec 6
  w : LoadW
  deriving DecidableEq, Repr

/-- Format MEM, a scalar store. -/
structure MemS where
  g : Guard
  reg : Fin 64
  base : Fin 64
  ac : Fin 4
  off : BitVec 6
  w : StoreW
  deriving DecidableEq, Repr

/-- Format MEM, LDV. -/
structure MemVL where
  g : Guard
  wb : Bool
  reg : Fin 32
  base : Fin 64
  ac : Fin 4
  off : BitVec 6
  deriving DecidableEq, Repr

/-- Format MEM, STV. -/
structure MemVS where
  g : Guard
  reg : Fin 32
  base : Fin 64
  ac : Fin 4
  off : BitVec 6
  deriving DecidableEq, Repr

/-- Format SYN; `dbl` is SZ. -/
structure SynF where
  g : Guard
  reg : Fin 64
  base : Fin 64
  scope : Scope
  dbl : Bool
  off : BitVec 5
  deriving DecidableEq, Repr

/-- Format ATM with its operation. -/
structure AtmF where
  g : Guard
  op : AtomOp
  reg : Fin 64
  base : Fin 64
  scope : Scope
  ord : Order
  dbl : Bool
  deriving DecidableEq, Repr

/-- Format CSX with the orders of R57: `acqFail` is the failure order .acq. -/
structure CsxF where
  g : Guard
  dbl : Bool
  acqFail : Bool
  succ : Order
  reg : Fin 64
  base : Fin 64
  new : Fin 64
  scope : Scope
  deriving DecidableEq, Repr

/-- Format ORD. -/
structure OrdF where
  g : Guard
  scope : Scope
  deriving DecidableEq, Repr

/-- Format VEC with an element type. -/
structure VecF where
  g : Guard
  d : VOp
  a : VOp
  b : VOp
  t : ElemT
  deriving DecidableEq, Repr

/-- Format VEC with one source. -/
structure VecU where
  g : Guard
  d : VOp
  a : VOp
  t : ElemT
  deriving DecidableEq, Repr

/-- Format VEC of VSEL: T is a mask register. -/
structure VecS where
  g : Guard
  d : VOp
  a : VOp
  b : VOp
  m : Fin 8
  deriving DecidableEq, Repr

/-- Format VEC of VAND, VOR, VXOR: T is zero. -/
structure VecL where
  g : Guard
  d : VOp
  a : VOp
  b : VOp
  deriving DecidableEq, Repr

/-- Format VEC of VQNT and VSCL: SRCB names the map register (R177). -/
structure VecQ where
  g : Guard
  d : VOp
  a : VOp
  b : Fin 32
  fmt : BlkT
  deriving DecidableEq, Repr

/-- Format VEC of VRED: SRCB is the operation (R181). -/
structure VecR where
  g : Guard
  d : VOp
  a : VOp
  op : RedOp
  t : ElemT
  deriving DecidableEq, Repr

/-- Format VCV. -/
structure VcvF where
  g : Guard
  rm : RMode
  vd : Fin 32
  vs : Fin 32
  tgt : CvtT
  frm : CvtT
  part : Fin 8
  deriving DecidableEq, Repr

/-- Format VCM. -/
structure VcmF where
  g : Guard
  cond : VCond
  kd : Fin 8
  a : VOp
  b : VOp
  t : ElemT
  deriving DecidableEq, Repr

/-- Format VSC. -/
structure VscF where
  g : Guard
  d : VOp
  src : Src
  t : ElemT
  deriving DecidableEq, Repr

/-- Format VMX. -/
structure VmxF where
  g : Guard
  v : VOp
  m : MOp
  idx : Fin 64
  deriving DecidableEq, Repr

/-- MCFG (R212): register number, value and, with PAIR, the value of the next register. -/
structure McfgF where
  g : Guard
  a : Src
  b : Src
  pair : Bool
  reg : Fin 16
  deriving DecidableEq, Repr

/-- MLD and MST of an m register (R213). -/
structure TilM where
  g : Guard
  a : Src
  b : Src
  m : MOp
  deriving DecidableEq, Repr

/-- MST of a PS (R213). -/
structure TilP where
  g : Guard
  a : Src
  b : Src
  ps : Bool
  deriving DecidableEq, Repr

/-- MZ of an m register (R214). -/
structure MzM where
  g : Guard
  m : Fin 8
  deriving DecidableEq, Repr

/-- MZ of a PS (R214). -/
structure MzP where
  g : Guard
  ps : Bool
  deriving DecidableEq, Repr

/-- MTA (R215). -/
structure MtaF where
  g : Guard
  a : Src
  b : Src
  asp : Bool
  bsp : Bool
  acc : Bool
  ps : Bool
  qsel : Fin 4
  deriving DecidableEq, Repr

/-- MTG (R216): ACC and BS are 1. -/
structure MtgF where
  g : Guard
  a : Src
  b : Src
  asp : Bool
  ps : Bool
  qsel : Fin 4
  deriving DecidableEq, Repr

/-- MSCA (R217). -/
structure MscaF where
  g : Guard
  ps : Bool
  ssel : Fin 4
  nosc : Bool
  c : Fin 8
  deriving DecidableEq, Repr

/-- MWT (R218). -/
structure MwtF where
  g : Guard
  n : Fin 3
  deriving DecidableEq, Repr

/-- HSET (R305): `drain` is ST = 3, otherwise ST = 1. -/
structure HsetF where
  g : Guard
  h : Fin 256
  drain : Bool
  n : Src
  deriving DecidableEq, Repr

/-- HWAIT (R306). -/
structure HwaitF where
  g : Guard
  h : Fin 256
  st : HState
  ph : Bool
  deriving DecidableEq, Repr

/-- HREL (R307). -/
structure HrelF where
  g : Guard
  h : Fin 256
  deriving DecidableEq, Repr

/-- BAR, BARA and XPH: barrier number (R353, R345). -/
structure BarF where
  g : Guard
  b : Fin 16
  deriving DecidableEq, Repr

/-- BARW (R353). -/
structure BarwF where
  g : Guard
  b : Fin 16
  ph : Bool
  deriving DecidableEq, Repr

/-- QFENCE (R330). -/
structure QmkF where
  g : Guard
  qm : BitVec 7
  deriving DecidableEq, Repr

/-- FBIND (R308). -/
structure FedF where
  g : Guard
  f : Fin 8
  a : Src
  b : Src
  deriving DecidableEq, Repr

/-- FDROP (R309). -/
structure FdropF where
  g : Guard
  f : Fin 8
  deriving DecidableEq, Repr

/-- XSND and XSEL (R345); `west` is RAIL = 1. -/
structure XrlF where
  g : Guard
  v : VOp
  west : Bool
  tk : BitVec 14
  deriving DecidableEq, Repr

/-- PAUSE and TRAP: a 12-bit immediate (R52). -/
structure ImtF where
  g : Guard
  imm : BitVec 12
  deriving DecidableEq, Repr

/-- BR and CALL (R127). -/
structure JmpF where
  g : Guard
  off : BitVec 21
  deriving DecidableEq, Repr

/-- BRP and RET (R128). -/
structure IndF where
  g : Guard
  src : Src
  deriving DecidableEq, Repr

/-- LOOP (R129). -/
structure LpfF where
  g : Guard
  cnt : Src
  fin : BitVec 14
  deriving DecidableEq, Repr

/-- LIX (R132). -/
structure LxfF where
  g : Guard
  d : Fin 64
  lv : Fin 6
  deriving DecidableEq, Repr

/-- A core: cluster and physical slot (R10). -/
structure CoreKey where
  cl : Fin 24
  sl : Fin 100
  deriving DecidableEq, Repr

/-- A port: the context of a task, gang index and role of a partition (R377). -/
structure PortName where
  part : Fin 24
  task : Nat
  gang : Nat
  role : Nat
  deriving DecidableEq, Repr

/-- A notice as it travels (R376); one of another device comes with its stand tenant id (R378). -/
structure Notice where
  tag : BitVec 32
  block : BitVec 32
  peer : Nat
  gang : Nat
  role : Nat
  prio : Nat
  dlv : Bool
  spm : Bool
  size : Nat
  loc : Word
  deadline : BitVec 32
  task : Nat
  stid : Option (BitVec 16) := none
  deriving DecidableEq, Repr

/-- Operations that reach another device (R412). -/
inductive RemoteOp where
  | ld | lda | st | stl
  | atom (op : AtomOp)
  | cas (cmp : Word)
  deriving DecidableEq, Repr

/-- A remote request at its target (R414): one of this device, or one that the device at position `src` sends. `via` is the intermediate
that a beat on a non-minimal path has still to reach (R410). -/
inductive RemoteReq where
  | leaves (id : Nat)
  | arrives (src : Nat) (via : Option Nat) (stid : BitVec 16) (op : RemoteOp) (gva : Word) (size : Nat) (data : Word) (tag : Nat)
  deriving DecidableEq, Repr

/-- A chunk request at its producer (R394): one of this device, or one that the device at position `src` sends here. -/
inductive ChunkReq where
  | here (id : Nat)
  | arrives (src : Nat) (dst : PortName) (block : BitVec 32) (pull : Nat) (first last : Bool) (off size tag : Nat)
  deriving DecidableEq, Repr

/-- What patrol scrub visits (R29): a line of the slices and LPDDR 5X, the mirror of a ply, a scratchpad byte or an m register of a core. -/
inductive ScrubAt where
  | line (n : Nat)
  | mirror (p : Fin 12)
  | pad (k : CoreKey) (off : Nat)
  | mreg (k : CoreKey) (m : Fin 8)
  deriving DecidableEq, Repr

/-- A member of a combining group: the tag under which its router awaits the answer, and the additions that it stands for, more than
one when it is itself a group closed upstream; where it comes from, and the intermediate that it has still to reach (R410, R418, R419). -/
structure Combined where
  tag : Nat
  adds : Nat
  src : Nat
  via : Option Nat
  deriving DecidableEq, Repr

/-- The operations and events of spec/opcode_table.json, one constructor for each row. -/
inductive Instr where
  | nop (slot : Fin 7) (g : Guard)
  | add (sl : ScalarSlot) (r : RegF)
  | sub (sl : ScalarSlot) (r : RegF)
  | addi (sl : ScalarSlot) (r : AimF)
  | mul (r : RegF)
  | mulh (r : RegF)
  | div (r : RegF)
  | divu (r : RegF)
  | rem (r : RegF)
  | remu (r : RegF)
  | and (sl : ScalarSlot) (r : RegF)
  | or (sl : ScalarSlot) (r : RegF)
  | xor (sl : ScalarSlot) (r : RegF)
  | andn (sl : ScalarSlot) (r : RegF)
  | shl (sl : ScalarSlot) (r : RegF)
  | shr (sl : ScalarSlot) (r : RegF)
  | sar (sl : ScalarSlot) (r : RegF)
  | rot (sl : ScalarSlot) (r : RegF)
  | min (sl : ScalarSlot) (r : RegF)
  | max (sl : ScalarSlot) (r : RegF)
  | minu (sl : ScalarSlot) (r : RegF)
  | maxu (sl : ScalarSlot) (r : RegF)
  | cmp (sl : ScalarSlot) (r : CmpF)
  | sel (sl : ScalarSlot) (r : SlpF)
  | clz (sl : ScalarSlot) (r : RegU)
  | popc (sl : ScalarSlot) (r : RegU)
  | movi (sl : ScalarSlot) (r : WimF)
  | movh (sl : ScalarSlot) (r : WimF)
  | bfx (sl : ScalarSlot) (r : RegF)
  | bfi (sl : ScalarSlot) (r : RegF)
  | mada (r : RegF)
  | pand (sl : ScalarSlot) (r : PrdF)
  | por (sl : ScalarSlot) (r : PrdF)
  | pxor (sl : ScalarSlot) (r : PrdF)
  | pnot (sl : ScalarSlot) (r : PrdU)
  | srd (r : SysF)
  | swr (r : SysF)
  | lds (r : MemL)
  | sts (r : MemS)
  | ldv (r : MemVL)
  | stv (r : MemVS)
  | ld (r : MemL)
  | st (r : MemS)
  | lda (r : SynF)
  | stl (r : SynF)
  | atom (r : AtmF)
  | cas (r : CsxF)
  | phase (r : OrdF)
  | fence (r : OrdF)
  | tagl (r : RegU)
  | tagi (r : RegN)
  | tagx (r : RegO)
  | rgwb (r : RegO)
  | vadd (r : VecF)
  | vsub (r : VecF)
  | vmul (r : VecF)
  | vfma (r : VecF)
  | vmax (r : VecF)
  | vmin (r : VecF)
  | vmaxu (r : VecF)
  | vminu (r : VecF)
  | vabs (r : VecU)
  | vneg (r : VecU)
  | vcmp (r : VcmF)
  | vcmpu (r : VcmF)
  | vsel (r : VecS)
  | vand (r : VecL)
  | vor (r : VecL)
  | vxor (r : VecL)
  | vshl (r : VecF)
  | vshr (r : VecF)
  | vsar (r : VecF)
  | vcvt (r : VcvF)
  | vqnt (r : VecQ)
  | vscl (r : VecQ)
  | vexp2 (r : VecU)
  | vrcp (r : VecU)
  | vrsq (r : VecU)
  | vred (r : VecR)
  | vperm (r : VecF)
  | vbc (r : VscF)
  | vidx (r : VecU)
  | vmrd (r : VmxF)
  | vmwr (r : VmxF)
  | mcfg (r : McfgF)
  | mld (r : TilM)
  | mst (r : TilM)
  | mstPs (r : TilP)
  | mz (r : MzM)
  | mzPs (r : MzP)
  | mta (r : MtaF)
  | mtg (r : MtgF)
  | msca (r : MscaF)
  | mwt (r : MwtF)
  | mcnt (r : RegU)
  | copy (r : RegN)
  | copyg (r : RegN)
  | copys (r : RegN)
  | copyr (r : RegN)
  | fbind (r : FedF)
  | fdrop (r : FdropF)
  | hset (r : HsetF)
  | hwait (r : HwaitF)
  | hrel (r : HrelF)
  | qfence (r : QmkF)
  | tenq (r : RegF)
  | tsig (r : RegN)
  | bar (r : BarF)
  | bara (r : BarF)
  | barw (r : BarwF)
  | pause (r : ImtF)
  | role (r : RegU)
  | xph (r : BarF)
  | xsnd (r : XrlF)
  | xsel (r : XrlF)
  | cst (r : RegN)
  | cld (r : RegU)
  | cxch (r : RegF)
  | pub (r : RegU)
  | land (r : RegF)
  | decl (r : RegO)
  | recl (r : RegO)
  | nstat (r : RegU)
  | cnt (r : RegU)
  | br (r : JmpF)
  | brp (r : IndF)
  | call (r : JmpF)
  | ret (r : IndF)
  | loop (r : LpfF)
  | lexit (g : Guard)
  | lix (r : LxfF)
  | endk (g : Guard)
  | trap (r : ImtF)
  | eret (g : Guard)
  | bundleIssue (k : CoreKey)
  | resultLands (k : CoreKey)
  | asyncTrapTaken (k : CoreKey)
  | bringUpStep
  | plyctlTargetP0 (p : Fin 12)
  | plyctlTargetP1 (p : Fin 12)
  | plyctlTargetP2 (p : Fin 12)
  | plyctlTargetP3 (p : Fin 12)
  | plyTransitionDone (p : Fin 12)
  | autoP1Entry (p : Fin 12)
  | powerShareLimit (p : Fin 24) (exceeds : Bool)
  | activityForecast
  | patrolScrub (at_ : ScrubAt) (bad : Bool)
  | placementDecision
  | gangStart (g : Nat)
  | graceExpiry (g : Nat)
  | gangSave (g : Nat)
  | saveComplete (g : Nat)
  | endDrainComplete (k : CoreKey)
  | ctxctlResume (k : CoreKey) (x : Bool)
  | ctxctlPark (k : CoreKey) (x : Bool)
  | ctxctlPreempt (k : CoreKey) (x : Bool)
  | ctxctlKill (k : CoreKey) (x : Bool)
  | taskComplete (p : Fin 24) (serial : Nat)
  | launchComplete (p : Fin 24) (id : Nat)
  | launchDoorbell (p : Fin 24) (gva : Word) (whole : Bool)
  | launchDescriptor (p : Fin 24)
  | taskRecordEntry (p : Fin 24)
  | notBeforeReached (p : Fin 24) (serial : Nat)
  | signalAdd (p : Fin 24) (sig : Fin 256) (amt : BitVec 32) (ply : Option (Fin 12))
  | signalWrite (p : Fin 24) (sig : Fin 256) (val : BitVec 32)
  | reservation (p : Fin 24)
  | tenqRequest (id : Nat)
  | tenqTimeout (id : Nat)
  | tenqResult (id : Nat)
  | homeSliceApply (id : Nat)
  | storeAck (id : Nat)
  | loadReply (id : Nat)
  | peerAccess (id : Nat)
  | hostPostedWrite (fn : Fin 25) (off : Nat) (data : List Byte)
  | hostRead (fn : Fin 25) (off : Nat) (n : Nat)
  | hostWatermarkBeat (late : Bool)
  | granuleFillComplete (k : CoreKey) (g : Fin 768)
  | tableWalk (k : CoreKey) (page : Nat)
  | walkRetry (k : CoreKey) (page : Nat)
  | mapinvcInvalidatePage (p : Fin 24)
  | mapinvcInvalidateAll (p : Fin 24)
  | mapinvcDrainFlush (p : Fin 24)
  | mapinvcDone (p : Fin 24)
  | faultQueueSet (p : Fin 24) (size : Bool) (val : Word)
  | fqtailWrite (p : Fin 24) (val : Word)
  | copyRelease (k : CoreKey)
  | copyReadReturn (k : CoreKey) (q : Fin 4)
  | copyWriteAck (k : CoreKey) (id : Nat)
  | cpyctlResume (k : CoreKey) (q : Fin 4)
  | cpyctlAbort (k : CoreKey) (q : Fin 4)
  | streamWindowRead (k : CoreKey) (f : Fin 8)
  | streamWindowWrite (k : CoreKey) (f : Fin 8)
  | tileOpStart (k : CoreKey)
  | tileOpComplete (k : CoreKey)
  | pauseExpiry (k : CoreKey)
  | barrierArrival (g : Nat) (b : Fin 16) (role : Fin 96) (xph : Bool)
  | railInjection (id : Nat) (enters : Bool)
  | railCapture (k : CoreKey)
  | clearingBeatSend
  | beatApplied (id : Nat)
  | retransmissionRequest (id : Nat) (station : Fin 13)
  | resyncPassStart
  | resyncComplete
  | planctlCommit
  | planActivate
  | clallocWrite (p : Fin 24) (val : Word)
  | noticeArrival (n : Notice) (dst : PortName) (from_ : PortName)
  | releaseMessage (dst : PortName) (block : BitVec 32)
  | abandon (dst : PortName) (block : BitVec 32) (pull : Nat)
  | blockOverdue (k : CoreKey) (block : BitVec 32)
  | pubTimeout (k : CoreKey)
  | pullGrant (k : CoreKey)
  | deferralExpiry (k : CoreKey) (entry : Fin 512)
  | chunkRequest (k : CoreKey)
  | chunkServe (r : ChunkReq)
  | chunkLanded (id : Nat)
  | portEnable (n : Fin 64)
  | portDisable (n : Fin 64)
  | portTrained (n : Fin 64) (nbr : Nat)
  | portDown (n : Fin 64)
  | routeWrite (n : Fin 3541) (val : Word)
  | remoteRequest (r : RemoteReq)
  | remoteTimeout (id : Nat)
  | combineArrival (port : Fin 60) (stid : BitVec 16) (gva : Word) (dbl : Bool) (v : Word) (m : Combined)
  | combineGroupClose (id : Nat)
  | timeBeat (within : Bool)
  | partcmdCreate (p : Fin 24)
  | partcmdApply (p : Fin 24)
  | partcmdDestroy (p : Fin 24)
  | applyComplete (p : Fin 24)
  | functionLevelReset (p : Fin 24)
  | attestationRequest (p : Fin 24) (nonce : BitVec 256)
  | sweeperVisit (k : CoreKey)
  | sampleRecord (k : CoreKey)
  | sampleRingSet (p : Fin 24) (size : Bool) (val : Word)
  | registerWrite (fn : Fin 25) (off n : Nat) (val : Word)
  | restoreComplete (g : Nat)
  deriving DecidableEq, Repr

end Sys2Proof
end

