-- ==== Sys2Proof/WellFormed.lean ====
section
/-! DEFINITION. Which instructions the encoding admits: the reserved codes of R49-R52, R62, R167, R177 and R211
that the types of Syntax.lean do not already rule out. -/

namespace Sys2Proof

/-- A vector operand that may stand as a source (R41: code 63 is reserved there). -/
def VOp.srcOk : VOp → Bool
  | .none => false
  | _ => true

/-- A vector operand that may stand as a destination (R41: latches are reserved there). -/
def VOp.dstOk : VOp → Bool
  | .l _ => false
  | _ => true

/-- Floating element types (R162). -/
def ElemT.isFloat : ElemT → Bool
  | .f32 | .bf16 | .f16 => true
  | .i32 | .i16 | .i8 => false

/-- Integer element types (R162). -/
def ElemT.isInt (t : ElemT) : Bool := !t.isFloat

/-- Width of an element type (R162). -/
def ElemT.width : ElemT → Nat
  | .f32 | .i32 => 32
  | .bf16 | .f16 | .i16 => 16
  | .i8 => 8

/-- Width of a conversion format (R162). -/
def CvtT.width : CvtT → Nat
  | .f32 | .i32 | .ui32 => 32
  | .f16 | .bf16 | .i16 | .ui16 => 16
  | .e4m3 | .e5m2 | .i8 | .ui8 | .e8m0 => 8
  | .e2m1 | .i4 | .ui4 => 4

/-- The system register numbers that R97 assigns. -/
def srAssigned (n : Nat) : Bool :=
  n ≤ 5 || n == 8 || n == 9 || (0x10 ≤ n && n ≤ 0x16) || (0x20 ≤ n && n ≤ 0x25)

/-- Engine register numbers that MCFG may write (R190, R212). -/
def engineRegOk (n : Nat) : Bool := n ≤ 4 || (8 ≤ n && n ≤ 15)

def VecF.ok (r : VecF) : Bool := !r.g.isNever && r.d.dstOk && r.a.srcOk && r.b.srcOk
def VecU.ok (r : VecU) : Bool := !r.g.isNever && r.d.dstOk && r.a.srcOk
def VecL.ok (r : VecL) : Bool := !r.g.isNever && r.d.dstOk && r.a.srcOk && r.b.srcOk
def VcmF.ok (r : VcmF) : Bool :=
  !r.g.isNever && r.a.srcOk && r.b.srcOk && !(r.cond == .un && r.t.isInt)

/-- The map register constraints of R177. -/
def VecQ.ok (r : VecQ) : Bool :=
  !r.g.isNever && r.d.dstOk && r.a.srcOk && r.d != .v r.b &&
    (r.fmt != .e2m1 || (r.b.val % 2 == 0 && r.d != .v ⟨(r.b.val + 1) % 32, by omega⟩))

/-- PART limit of R175. -/
def VcvF.ok (r : VcvF) : Bool :=
  !r.g.isNever &&
    r.part.val * Nat.min r.tgt.width r.frm.width < Nat.max r.tgt.width r.frm.width

def MOp.straight (m : MOp) : Bool := m.dir == .row || m.dir == .col

/-- Well-formed instructions: those that a legal slot word holds (R62). An event carries only plain values and is
always well-formed. -/
def Instr.wf : Instr → Bool
  | .nop _ _ => true
  | .add _ r | .sub _ r | .and _ r | .or _ r | .xor _ r | .andn _ r | .shl _ r | .shr _ r | .sar _ r | .rot _ r
  | .min _ r | .max _ r | .minu _ r | .maxu _ r | .bfx _ r | .bfi _ r => !r.g.isNever
  | .mul r | .mulh r | .div r | .divu r | .rem r | .remu r | .mada r | .tenq r | .cxch r | .land r => !r.g.isNever
  | .addi _ r => !r.g.isNever
  | .cmp _ r => !r.g.isNever
  | .sel _ r => !r.g.isNever
  | .clz _ r | .popc _ r => !r.g.isNever
  | .movi _ r | .movh _ r => !r.g.isNever
  | .pand _ r | .por _ r | .pxor _ r => !r.g.isNever
  | .pnot _ r => !r.g.isNever
  | .srd r | .swr r => !r.g.isNever && srAssigned r.sr.val
  | .lds r | .ld r => !r.g.isNever
  | .sts r | .st r => !r.g.isNever
  | .ldv r => !r.g.isNever
  | .stv r => !r.g.isNever
  | .lda r | .stl r => !r.g.isNever
  | .atom r => !r.g.isNever
  | .cas r => !r.g.isNever
  | .phase r | .fence r => !r.g.isNever
  | .tagl r | .mcnt r | .role r | .cld r | .pub r | .nstat r | .cnt r => !r.g.isNever
  | .tagi r | .copy r | .copyg r | .copys r | .copyr r | .tsig r | .cst r => !r.g.isNever
  | .tagx r | .rgwb r | .decl r | .recl r => !r.g.isNever
  | .vadd r | .vsub r | .vmul r | .vfma r | .vmax r | .vmin r | .vperm r => r.ok
  | .vmaxu r | .vminu r | .vshl r | .vshr r | .vsar r => r.ok && r.t.isInt
  | .vabs r | .vneg r => r.ok
  | .vexp2 r | .vrcp r | .vrsq r => r.ok && r.t.isFloat
  | .vidx r => r.ok && r.t.isInt
  | .vcmp r => r.ok
  | .vcmpu r => r.ok && r.t.isInt
  | .vsel r => !r.g.isNever && r.d.dstOk && r.a.srcOk && r.b.srcOk
  | .vand r | .vor r | .vxor r => r.ok
  | .vcvt r => r.ok
  | .vqnt r | .vscl r => r.ok
  | .vred r => !r.g.isNever && r.d.dstOk && r.a.srcOk
  | .vbc r => !r.g.isNever && r.d.dstOk
  | .vmrd r => !r.g.isNever && r.v.dstOk
  | .vmwr r => !r.g.isNever && r.v.srcOk
  | .mcfg r => !r.g.isNever && engineRegOk r.reg.val &&
      (if r.pair then engineRegOk (r.reg.val + 1) && decide (r.reg.val + 1 < 16) else r.b == .s 0)
  | .mld r | .mst r => !r.g.isNever && r.m.straight
  | .mstPs r => !r.g.isNever
  | .mz r => !r.g.isNever
  | .mzPs r => !r.g.isNever
  | .mta r => !r.g.isNever
  | .mtg r => !r.g.isNever
  | .msca r => !r.g.isNever && (!r.nosc || r.ssel.val == 0)
  | .mwt r => !r.g.isNever
  | .fbind r => !r.g.isNever
  | .fdrop r => !r.g.isNever
  | .hset r => !r.g.isNever
  | .hwait r => !r.g.isNever
  | .hrel r => !r.g.isNever
  | .qfence r => !r.g.isNever && r.qm != 0
  | .bar r | .bara r | .xph r => !r.g.isNever
  | .barw r => !r.g.isNever
  | .pause r | .trap r => !r.g.isNever
  | .xsnd r => !r.g.isNever && r.v.srcOk
  | .xsel r => !r.g.isNever && (match r.v with | .v _ | .f _ => true | _ => false)
  | .br r | .call r => !r.g.isNever
  | .brp r | .ret r => !r.g.isNever
  | .loop r => !r.g.isNever && r.fin != 0
  | .lexit g | .endk g | .eret g => !g.isNever
  | .lix r => !r.g.isNever
  | _ => true

/-- The slot an instruction stands in, or none for an event (R35). -/
def Instr.slot? : Instr → Option (Fin 7)
  | .nop s _ => some s
  | .add s _ | .sub s _ | .and s _ | .or s _ | .xor s _ | .andn s _ | .shl s _ | .shr s _ | .sar s _ | .rot s _
  | .min s _ | .max s _ | .minu s _ | .maxu s _ | .bfx s _ | .bfi s _ => some (if s == .s0 then 0 else 1)
  | .addi s _ => some (if s == .s0 then 0 else 1)
  | .cmp s _ => some (if s == .s0 then 0 else 1)
  | .sel s _ => some (if s == .s0 then 0 else 1)
  | .clz s _ | .popc s _ => some (if s == .s0 then 0 else 1)
  | .movi s _ | .movh s _ => some (if s == .s0 then 0 else 1)
  | .pand s _ | .por s _ | .pxor s _ => some (if s == .s0 then 0 else 1)
  | .pnot s _ => some (if s == .s0 then 0 else 1)
  | .mul _ | .mulh _ | .div _ | .divu _ | .rem _ | .remu _ | .mada _ | .srd _ | .swr _ => some 0
  | .lds _ | .sts _ | .ldv _ | .stv _ | .ld _ | .st _ | .lda _ | .stl _ | .atom _ | .cas _ | .phase _ | .fence _
  | .tagl _ | .tagi _ | .tagx _ | .rgwb _ => some 2
  | .vadd _ | .vsub _ | .vmul _ | .vfma _ | .vmax _ | .vmin _ | .vmaxu _ | .vminu _ | .vabs _ | .vneg _ | .vcmp _
  | .vcmpu _ | .vsel _ | .vand _ | .vor _ | .vxor _ | .vshl _ | .vshr _ | .vsar _ | .vcvt _ | .vqnt _ | .vscl _
  | .vexp2 _ | .vrcp _ | .vrsq _ | .vred _ | .vperm _ | .vbc _ | .vidx _ | .vmrd _ | .vmwr _ => some 3
  | .mcfg _ | .mld _ | .mst _ | .mstPs _ | .mz _ | .mzPs _ | .mta _ | .mtg _ | .msca _ | .mwt _ | .mcnt _ => some 4
  | .copy _ | .copyg _ | .copys _ | .copyr _ | .fbind _ | .fdrop _ | .hset _ | .hwait _ | .hrel _ | .qfence _
  | .tenq _ | .tsig _ | .bar _ | .bara _ | .barw _ | .pause _ | .role _ | .xph _ | .xsnd _ | .xsel _ | .cst _
  | .cld _ | .cxch _ | .pub _ | .land _ | .decl _ | .recl _ | .nstat _ | .cnt _ => some 5
  | .br _ | .brp _ | .call _ | .ret _ | .loop _ | .lexit _ | .lix _ | .endk _ | .trap _ | .eret _ => some 6
  | _ => none

end Sys2Proof
end

