-- ==== Sys2Proof/Decode.lean ====
section
/-! DEFINITION. The decoder: total on any word, one map per slot class (R54-R61), refusing reserved codes; then the
encoder, written from the same tables. -/

namespace Sys2Proof

/-- Guard bits [24:21] (R36). -/
def decGuard (w : Nat) : Guard := ⟨bitOf w 24, Fin.ofNat 8 (fld w 21 3)⟩

/-- 7-bit scalar source (R40). -/
def decSrc (c : Nat) : Option Src :=
  if c < 64 then some (.s (Fin.ofNat 64 c))
  else if c < 76 then some (.l (Fin.ofNat 12 (c - 64)))
  else if c < 80 then none
  else if c < 96 then some (.imm (BitVec.ofNat 4 (c - 80)))
  else none

/-- 6-bit vector operand code (R41). -/
def decVOp (c : Nat) : Option VOp :=
  if c < 32 then some (.v (Fin.ofNat 32 c))
  else if c < 40 then some (.f (Fin.ofNat 8 (c - 32)))
  else if c < 48 then none
  else if c < 60 then some (.l (Fin.ofNat 12 (c - 48)))
  else if c = 63 then some .none
  else none

/-- Scope code (R50). -/
def decScope : Nat → Option Scope
  | 0 => some .core | 1 => some .cluster | 2 => some .ply | 3 => some .stack | 4 => some .device | 5 => some .stand
  | _ => none

/-- Order code (R50). -/
def decOrder : Nat → Order
  | 0 => .rlx | 1 => .acq | 2 => .rel | _ => .ar

/-- Element type code (R51). -/
def decElem : Nat → Option ElemT
  | 0 => some .f32 | 1 => some .bf16 | 2 => some .f16 | 4 => some .i32 | 5 => some .i16 | 6 => some .i8
  | _ => none

/-- Block format code (R51). -/
def decBlk : Nat → Option BlkT
  | 0 => some .e4m3 | 1 => some .e5m2 | 2 => some .e2m1
  | _ => none

/-- Conversion format code (R51). -/
def decCvt : Nat → Option CvtT
  | 0 => some .f32 | 1 => some .f16 | 2 => some .bf16 | 3 => some .e4m3 | 4 => some .e5m2 | 5 => some .e2m1
  | 6 => some .i4 | 7 => some .i8 | 8 => some .i16 | 9 => some .i32 | 10 => some .ui4 | 11 => some .ui8
  | 12 => some .ui16 | 13 => some .ui32 | 14 => some .e8m0
  | _ => none

/-- Condition code of CMP (R49). -/
def decCond : Nat → Option Cond
  | 0 => some .eq | 1 => some .ne | 2 => some .lt | 3 => some .le | 4 => some .gt | 5 => some .ge
  | 6 => some .ltu | 7 => some .leu | 8 => some .gtu | 9 => some .geu
  | _ => none

/-- Condition code of VCMP (R50). -/
def decVCond : Nat → Option VCond
  | 0 => some .eq | 1 => some .ne | 2 => some .lt | 3 => some .le | 4 => some .gt | 5 => some .ge | 6 => some .un
  | _ => none

/-- Reduction code of VRED (R181). -/
def decRed : Nat → Option RedOp
  | 0 => some .add | 1 => some .max | 2 => some .min | 3 => some .amax
  | _ => none

/-- Direction code of R48. -/
def decDir : Nat → Dir
  | 0 => .row | 1 => .col | 2 => .dia | _ => .adia

/-- Five-bit m operand field (R48). -/
def decMOp (c : Nat) : MOp := ⟨decDir (c / 8 % 4), Fin.ofNat 8 (c % 8)⟩

/-- Handle state code (R276). -/
def decHState : Nat → HState
  | 0 => .free | 1 => .filling | 2 => .full | _ => .draining

/-- Fields [20:0] of format REG with two sources and a destination. -/
def decRegF (w : Nat) : Option RegF := do
  let a ← decSrc (fld w 7 7)
  let b ← decSrc (fld w 0 7)
  some ⟨decGuard w, bitOf w 20, Fin.ofNat 64 (fld w 14 6), a, b⟩

/-- Format REG with SRCB unused: its code must be zero (R116). -/
def decRegU (w : Nat) : Option RegU := do
  let a ← decSrc (fld w 7 7)
  if fld w 0 7 = 0 then some ⟨decGuard w, bitOf w 20, Fin.ofNat 64 (fld w 14 6), a⟩ else none

/-- Format REG with WB and DST zero. -/
def decRegN (w : Nat) : Option RegN := do
  let a ← decSrc (fld w 7 7)
  let b ← decSrc (fld w 0 7)
  if fld w 14 7 = 0 then some ⟨decGuard w, a, b⟩ else none

/-- Format REG with SRCA only. -/
def decRegO (w : Nat) : Option RegO := do
  let a ← decSrc (fld w 7 7)
  if fld w 14 7 = 0 ∧ fld w 0 7 = 0 then some ⟨decGuard w, a⟩ else none

/-- Format WIM. -/
def decWim (w : Nat) : WimF :=
  ⟨decGuard w, bitOf w 20, Fin.ofNat 64 (fld w 14 6), BitVec.ofNat 14 (fld w 0 14)⟩

/-- Format AIM. -/
def decAim (w : Nat) : Option AimF := do
  let a ← decSrc (fld w 7 7)
  some ⟨decGuard w, bitOf w 20, Fin.ofNat 64 (fld w 14 6), a, BitVec.ofNat 7 (fld w 0 7)⟩

/-- Format CMP. -/
def decCmp (w : Nat) : Option CmpF := do
  let c ← decCond (fld w 17 4)
  let a ← decSrc (fld w 7 7)
  let b ← decSrc (fld w 0 7)
  some ⟨decGuard w, c, Fin.ofNat 8 (fld w 14 3), a, b⟩

/-- Format PRD. -/
def decPrd (w : Nat) : Option PrdF :=
  if fld w 9 12 = 0 then
    some ⟨decGuard w, Fin.ofNat 8 (fld w 6 3), Fin.ofNat 8 (fld w 3 3), Fin.ofNat 8 (fld w 0 3)⟩
  else none

/-- Format PRD of PNOT: PB is unused. -/
def decPrdU (w : Nat) : Option PrdU :=
  if fld w 9 12 = 0 ∧ fld w 0 3 = 0 then some ⟨decGuard w, Fin.ofNat 8 (fld w 6 3), Fin.ofNat 8 (fld w 3 3)⟩
  else none

/-- Format SLP. -/
def decSlp (w : Nat) : SlpF :=
  ⟨decGuard w, Fin.ofNat 8 (fld w 18 3), Fin.ofNat 64 (fld w 12 6), Fin.ofNat 64 (fld w 6 6),
    Fin.ofNat 64 (fld w 0 6)⟩

/-- Format SYS. -/
def decSys (w : Nat) : Option SysF :=
  if fld w 12 3 = 0 then some ⟨decGuard w, Fin.ofNat 64 (fld w 15 6), Fin.ofNat 4096 (fld w 0 12)⟩ else none

/-- Format MEM, a scalar load of width `x`. -/
def decMemL (w : Nat) (x : LoadW) : MemL :=
  ⟨decGuard w, bitOf w 20, Fin.ofNat 64 (fld w 14 6), Fin.ofNat 64 (fld w 8 6), Fin.ofNat 4 (fld w 6 2),
    BitVec.ofNat 6 (fld w 0 6), x⟩

/-- Format MEM, a scalar store of width `x`: WB must be zero. -/
def decMemS (w : Nat) (x : StoreW) : Option MemS :=
  if bitOf w 20 then none
  else some ⟨decGuard w, Fin.ofNat 64 (fld w 14 6), Fin.ofNat 64 (fld w 8 6), Fin.ofNat 4 (fld w 6 2),
    BitVec.ofNat 6 (fld w 0 6), x⟩

/-- Format MEM, LDV: REG 32-63 are reserved. -/
def decMemVL (w : Nat) : Option MemVL :=
  if fld w 14 6 < 32 then
    some ⟨decGuard w, bitOf w 20, Fin.ofNat 32 (fld w 14 6), Fin.ofNat 64 (fld w 8 6), Fin.ofNat 4 (fld w 6 2),
      BitVec.ofNat 6 (fld w 0 6)⟩
  else none

/-- Format MEM, STV. -/
def decMemVS (w : Nat) : Option MemVS :=
  if fld w 14 7 < 32 then
    some ⟨decGuard w, Fin.ofNat 32 (fld w 14 6), Fin.ofNat 64 (fld w 8 6), Fin.ofNat 4 (fld w 6 2),
      BitVec.ofNat 6 (fld w 0 6)⟩
  else none

/-- Format SYN. -/
def decSyn (w : Nat) : Option SynF := do
  let s ← decScope (fld w 6 3)
  some ⟨decGuard w, Fin.ofNat 64 (fld w 15 6), Fin.ofNat 64 (fld w 9 6), s, bitOf w 5, BitVec.ofNat 5 (fld w 0 5)⟩

/-- Format ATM. -/
def decAtm (w : Nat) (op : AtomOp) : Option AtmF := do
  let s ← decScope (fld w 6 3)
  if fld w 0 3 = 0 then
    some ⟨decGuard w, op, Fin.ofNat 64 (fld w 15 6), Fin.ofNat 64 (fld w 9 6), s, decOrder (fld w 4 2), bitOf w 3⟩
  else none

/-- Format CSX; the three low opcode bits hold the orders (R57). -/
def decCsx (w : Nat) : Option CsxF := do
  let s ← decScope (fld w 0 3)
  some ⟨decGuard w, bitOf w 28, bitOf w 27, decOrder (fld w 25 2), Fin.ofNat 64 (fld w 15 6),
    Fin.ofNat 64 (fld w 9 6), Fin.ofNat 64 (fld w 3 6), s⟩

/-- Format ORD. -/
def decOrd (w : Nat) : Option OrdF := do
  let s ← decScope (fld w 18 3)
  if fld w 0 18 = 0 then some ⟨decGuard w, s⟩ else none

/-- Format VEC with an element type. -/
def decVec (w : Nat) : Option VecF := do
  let d ← decVOp (fld w 15 6)
  let a ← decVOp (fld w 9 6)
  let b ← decVOp (fld w 3 6)
  let t ← decElem (fld w 0 3)
  some ⟨decGuard w, d, a, b, t⟩

/-- Format VEC with SRCB unused. -/
def decVecU (w : Nat) : Option VecU := do
  let d ← decVOp (fld w 15 6)
  let a ← decVOp (fld w 9 6)
  let t ← decElem (fld w 0 3)
  if fld w 3 6 = 0 then some ⟨decGuard w, d, a, t⟩ else none

/-- Format VEC of VSEL. -/
def decVecS (w : Nat) : Option VecS := do
  let d ← decVOp (fld w 15 6)
  let a ← decVOp (fld w 9 6)
  let b ← decVOp (fld w 3 6)
  some ⟨decGuard w, d, a, b, Fin.ofNat 8 (fld w 0 3)⟩

/-- Format VEC of the bitwise instructions: T is zero. -/
def decVecL (w : Nat) : Option VecL := do
  let d ← decVOp (fld w 15 6)
  let a ← decVOp (fld w 9 6)
  let b ← decVOp (fld w 3 6)
  if fld w 0 3 = 0 then some ⟨decGuard w, d, a, b⟩ else none

/-- Format VEC of VQNT and VSCL: SRCB is a v register (R177). -/
def decVecQ (w : Nat) : Option VecQ := do
  let d ← decVOp (fld w 15 6)
  let a ← decVOp (fld w 9 6)
  let f ← decBlk (fld w 0 3)
  if fld w 3 6 < 32 then some ⟨decGuard w, d, a, Fin.ofNat 32 (fld w 3 6), f⟩ else none

/-- Format VEC of VRED. -/
def decVecR (w : Nat) : Option VecR := do
  let d ← decVOp (fld w 15 6)
  let a ← decVOp (fld w 9 6)
  let op ← decRed (fld w 3 6)
  let t ← decElem (fld w 0 3)
  some ⟨decGuard w, d, a, op, t⟩

/-- Format VCV. -/
def decVcv (w : Nat) (rm : RMode) : Option VcvF := do
  let t ← decCvt (fld w 7 4)
  let f ← decCvt (fld w 3 4)
  some ⟨decGuard w, rm, Fin.ofNat 32 (fld w 16 5), Fin.ofNat 32 (fld w 11 5), t, f, Fin.ofNat 8 (fld w 0 3)⟩

/-- Format VCM. -/
def decVcm (w : Nat) : Option VcmF := do
  let c ← decVCond (fld w 18 3)
  let a ← decVOp (fld w 9 6)
  let b ← decVOp (fld w 3 6)
  let t ← decElem (fld w 0 3)
  some ⟨decGuard w, c, Fin.ofNat 8 (fld w 15 3), a, b, t⟩

/-- Format VSC. -/
def decVsc (w : Nat) : Option VscF := do
  let d ← decVOp (fld w 15 6)
  let s ← decSrc (fld w 8 7)
  let t ← decElem (fld w 0 3)
  if fld w 3 5 = 0 then some ⟨decGuard w, d, s, t⟩ else none

/-- Format VMX. -/
def decVmx (w : Nat) : Option VmxF := do
  let v ← decVOp (fld w 15 6)
  if fld w 0 4 = 0 then some ⟨decGuard w, v, decMOp (fld w 10 5), Fin.ofNat 64 (fld w 4 6)⟩ else none

/-- MCFG (R211): CTL [6:5] zero. -/
def decMcfg (w : Nat) : Option McfgF := do
  let a ← decSrc (fld w 14 7)
  let b ← decSrc (fld w 7 7)
  if fld w 5 2 = 0 then some ⟨decGuard w, a, b, bitOf w 4, Fin.ofNat 16 (fld w 0 4)⟩ else none

/-- MLD and MST of an m register (R211): CTL [6:5] zero. -/
def decTilM (w : Nat) : Option TilM := do
  let a ← decSrc (fld w 14 7)
  let b ← decSrc (fld w 7 7)
  if fld w 5 2 = 0 then some ⟨decGuard w, a, b, decMOp (fld w 0 5)⟩ else none

/-- MST of a PS (R211): CTL [6] is 1 and [5:1] zero. -/
def decTilP (w : Nat) : Option TilP := do
  let a ← decSrc (fld w 14 7)
  let b ← decSrc (fld w 7 7)
  if fld w 1 6 = 32 then some ⟨decGuard w, a, b, bitOf w 0⟩ else none

/-- MZ of an m register (R211). -/
def decMzM (w : Nat) : Option MzM :=
  if fld w 3 18 = 0 then some ⟨decGuard w, Fin.ofNat 8 (fld w 0 3)⟩ else none

/-- MZ of a PS (R211). -/
def decMzP (w : Nat) : Option MzP :=
  if fld w 1 20 = 32 then some ⟨decGuard w, bitOf w 0⟩ else none

/-- MTA (R211). -/
def decMta (w : Nat) : Option MtaF := do
  let a ← decSrc (fld w 14 7)
  let b ← decSrc (fld w 7 7)
  if bitOf w 0 then none
  else some ⟨decGuard w, a, b, bitOf w 6, bitOf w 5, bitOf w 4, bitOf w 3, Fin.ofNat 4 (fld w 1 2)⟩

/-- MTG (R211, R216): BS and ACC must be 1. -/
def decMtg (w : Nat) : Option MtgF := do
  let a ← decSrc (fld w 14 7)
  let b ← decSrc (fld w 7 7)
  if bitOf w 0 = false ∧ bitOf w 5 ∧ bitOf w 4 then
    some ⟨decGuard w, a, b, bitOf w 6, bitOf w 3, Fin.ofNat 4 (fld w 1 2)⟩
  else none

/-- MSCA (R211). -/
def decMsca (w : Nat) : Option MscaF :=
  if fld w 7 14 = 0 then
    some ⟨decGuard w, bitOf w 6, Fin.ofNat 4 (fld w 4 2), bitOf w 3, Fin.ofNat 8 (fld w 0 3)⟩
  else none

/-- MWT (R211): n is 0-2. -/
def decMwt (w : Nat) : Option MwtF :=
  if fld w 0 21 < 3 then some ⟨decGuard w, Fin.ofNat 3 (fld w 0 21)⟩ else none

/-- HSET (R305): ST is 1 or 3, PH and res zero. -/
def decHset (w : Nat) : Option HsetF := do
  let n ← decSrc (fld w 0 7)
  if fld w 7 4 = 0 ∧ bitOf w 11 then some ⟨decGuard w, Fin.ofNat 256 (fld w 13 8), bitOf w 12, n⟩ else none

/-- HWAIT (R306): SRC and res zero. -/
def decHwait (w : Nat) : Option HwaitF :=
  if fld w 0 10 = 0 then
    some ⟨decGuard w, Fin.ofNat 256 (fld w 13 8), decHState (fld w 11 2), bitOf w 10⟩
  else none

/-- HREL (R307): ST, PH, res and SRC zero. -/
def decHrel (w : Nat) : Option HrelF :=
  if fld w 0 13 = 0 then some ⟨decGuard w, Fin.ofNat 256 (fld w 13 8)⟩ else none

/-- BAR and BARA (R353): PH must be zero. -/
def decBar (w : Nat) : Option BarF :=
  if fld w 0 17 = 0 then some ⟨decGuard w, Fin.ofNat 16 (fld w 17 4)⟩ else none

/-- XPH (R345, R52). -/
def decXph (w : Nat) : Option BarF :=
  if fld w 4 17 = 0 then some ⟨decGuard w, Fin.ofNat 16 (fld w 0 4)⟩ else none

/-- BARW (R353). -/
def decBarw (w : Nat) : Option BarwF :=
  if fld w 0 16 = 0 then some ⟨decGuard w, Fin.ofNat 16 (fld w 17 4), bitOf w 16⟩ else none

/-- QFENCE (R330). -/
def decQmk (w : Nat) : Option QmkF :=
  if fld w 7 14 = 0 then some ⟨decGuard w, BitVec.ofNat 7 (fld w 0 7)⟩ else none

/-- FBIND (R308). -/
def decFed (w : Nat) : Option FedF := do
  let a ← decSrc (fld w 7 7)
  let b ← decSrc (fld w 0 7)
  if fld w 14 4 = 0 then some ⟨decGuard w, Fin.ofNat 8 (fld w 18 3), a, b⟩ else none

/-- FDROP (R309). -/
def decFdrop (w : Nat) : Option FdropF :=
  if fld w 0 18 = 0 then some ⟨decGuard w, Fin.ofNat 8 (fld w 18 3)⟩ else none

/-- XSND and XSEL (R345). -/
def decXrl (w : Nat) : Option XrlF := do
  let v ← decVOp (fld w 15 6)
  some ⟨decGuard w, v, bitOf w 14, BitVec.ofNat 14 (fld w 0 14)⟩

/-- Format IMT with its 12-bit immediate. -/
def decImt (w : Nat) : Option ImtF :=
  if fld w 12 9 = 0 then some ⟨decGuard w, BitVec.ofNat 12 (fld w 0 12)⟩ else none

/-- Format IMT with IMM zero (R52). -/
def decImt0 (w : Nat) : Option Guard := if fld w 0 21 = 0 then some (decGuard w) else none

/-- Format JMP. -/
def decJmp (w : Nat) : JmpF := ⟨decGuard w, BitVec.ofNat 21 (fld w 0 21)⟩

/-- Format IND. -/
def decInd (w : Nat) : Option IndF := do
  let s ← decSrc (fld w 0 7)
  if fld w 7 14 = 0 then some ⟨decGuard w, s⟩ else none

/-- Format LPF. -/
def decLpf (w : Nat) : Option LpfF := do
  let c ← decSrc (fld w 14 7)
  some ⟨decGuard w, c, BitVec.ofNat 14 (fld w 0 14)⟩

/-- Format LXF: levels 6 and 7 are reserved. -/
def decLxf (w : Nat) : Option LxfF :=
  if fld w 0 12 = 0 ∧ fld w 12 3 < 6 then
    some ⟨decGuard w, Fin.ofNat 64 (fld w 15 6), Fin.ofNat 6 (fld w 12 3)⟩
  else none


/-- Scalar map of R55 that both scalar slots share. -/
def decScalar (sl : ScalarSlot) (w : Nat) : Nat → Option Instr
  | 1 => (decRegF w).map (.add sl)
  | 2 => (decRegF w).map (.sub sl)
  | 3 => (decAim w).map (.addi sl)
  | 10 => (decRegF w).map (.and sl)
  | 11 => (decRegF w).map (.or sl)
  | 12 => (decRegF w).map (.xor sl)
  | 13 => (decRegF w).map (.andn sl)
  | 14 => (decRegF w).map (.shl sl)
  | 15 => (decRegF w).map (.shr sl)
  | 16 => (decRegF w).map (.sar sl)
  | 17 => (decRegF w).map (.rot sl)
  | 18 => (decRegF w).map (.min sl)
  | 19 => (decRegF w).map (.max sl)
  | 20 => (decRegF w).map (.minu sl)
  | 21 => (decRegF w).map (.maxu sl)
  | 22 => (decCmp w).map (.cmp sl)
  | 23 => some (.sel sl (decSlp w))
  | 24 => (decRegU w).map (.clz sl)
  | 25 => (decRegU w).map (.popc sl)
  | 26 => some (.movi sl (decWim w))
  | 27 => some (.movh sl (decWim w))
  | 28 => (decRegF w).map (.bfx sl)
  | 29 => (decRegF w).map (.bfi sl)
  | 32 => (decPrd w).map (.pand sl)
  | 33 => (decPrd w).map (.por sl)
  | 34 => (decPrd w).map (.pxor sl)
  | 35 => (decPrdU w).map (.pnot sl)
  | _ => none

/-- Entries of R55 that are assigned in S0 only. -/
def decScalarA (w : Nat) : Nat → Option Instr
  | 4 => (decRegF w).map .mul
  | 5 => (decRegF w).map .mulh
  | 6 => (decRegF w).map .div
  | 7 => (decRegF w).map .divu
  | 8 => (decRegF w).map .rem
  | 9 => (decRegF w).map .remu
  | 30 => (decRegF w).map .mada
  | 48 => (decSys w).map .srd
  | 49 => (decSys w).map .swr
  | op => decScalar .s0 w op

/-- Memory map of R56. -/
def decMemory (w : Nat) : Nat → Option Instr
  | 1 => some (.lds (decMemL w .b))
  | 2 => some (.lds (decMemL w .bu))
  | 3 => some (.lds (decMemL w .h))
  | 4 => some (.lds (decMemL w .hu))
  | 5 => some (.lds (decMemL w .w))
  | 6 => some (.lds (decMemL w .wu))
  | 7 => some (.lds (decMemL w .d))
  | 17 => some (.ld (decMemL w .b))
  | 18 => some (.ld (decMemL w .bu))
  | 19 => some (.ld (decMemL w .h))
  | 20 => some (.ld (decMemL w .hu))
  | 21 => some (.ld (decMemL w .w))
  | 22 => some (.ld (decMemL w .wu))
  | 23 => some (.ld (decMemL w .d))
  | 8 => (decMemS w .b).map .sts
  | 9 => (decMemS w .h).map .sts
  | 10 => (decMemS w .w).map .sts
  | 11 => (decMemS w .d).map .sts
  | 24 => (decMemS w .b).map .st
  | 25 => (decMemS w .h).map .st
  | 26 => (decMemS w .w).map .st
  | 27 => (decMemS w .d).map .st
  | 12 => (decMemVL w).map .ldv
  | 13 => (decMemVS w).map .stv
  | 32 => (decSyn w).map .lda
  | 33 => (decSyn w).map .stl
  | 40 => (decAtm w .add).map .atom
  | 41 => (decAtm w .min).map .atom
  | 42 => (decAtm w .max).map .atom
  | 43 => (decAtm w .and).map .atom
  | 44 => (decAtm w .or).map .atom
  | 45 => (decAtm w .xor).map .atom
  | 46 => (decAtm w .xchg).map .atom
  | 64 => (decOrd w).map .phase
  | 65 => (decOrd w).map .fence
  | 72 => (decRegU w).map .tagl
  | 73 => (decRegN w).map .tagi
  | 74 => (decRegO w).map .tagx
  | 75 => (decRegO w).map .rgwb
  | op => if 48 ≤ op ∧ op < 64 then (decCsx w).map .cas else none

/-- Vector map of R58. -/
def decVector (w : Nat) : Nat → Option Instr
  | 1 => (decVec w).map .vadd
  | 2 => (decVec w).map .vsub
  | 3 => (decVec w).map .vmul
  | 4 => (decVec w).map .vfma
  | 5 => (decVec w).map .vmax
  | 6 => (decVec w).map .vmin
  | 7 => (decVec w).map .vmaxu
  | 8 => (decVec w).map .vminu
  | 9 => (decVecU w).map .vabs
  | 10 => (decVecU w).map .vneg
  | 16 => (decVcm w).map .vcmp
  | 17 => (decVcm w).map .vcmpu
  | 18 => (decVecS w).map .vsel
  | 24 => (decVecL w).map .vand
  | 25 => (decVecL w).map .vor
  | 26 => (decVecL w).map .vxor
  | 27 => (decVec w).map .vshl
  | 28 => (decVec w).map .vshr
  | 29 => (decVec w).map .vsar
  | 32 => (decVcv w .rne).map .vcvt
  | 33 => (decVcv w .rz).map .vcvt
  | 34 => (decVcv w .rdn).map .vcvt
  | 35 => (decVcv w .rup).map .vcvt
  | 36 => (decVcv w .rsr).map .vcvt
  | 40 => (decVecQ w).map .vqnt
  | 41 => (decVecQ w).map .vscl
  | 48 => (decVecU w).map .vexp2
  | 49 => (decVecU w).map .vrcp
  | 50 => (decVecU w).map .vrsq
  | 56 => (decVecR w).map .vred
  | 57 => (decVec w).map .vperm
  | 58 => (decVsc w).map .vbc
  | 59 => (decVecU w).map .vidx
  | 64 => (decVmx w).map .vmrd
  | 65 => (decVmx w).map .vmwr
  | _ => none

/-- Tile map of R59; CTL [6] tells the two forms of MST and MZ apart (R211). -/
def decTile (w : Nat) : Nat → Option Instr
  | 1 => (decMcfg w).map .mcfg
  | 2 => (decTilM w).map .mld
  | 3 => if bitOf w 6 then (decTilP w).map .mstPs else (decTilM w).map .mst
  | 4 => if bitOf w 6 then (decMzP w).map .mzPs else (decMzM w).map .mz
  | 5 => (decMta w).map .mta
  | 6 => (decMtg w).map .mtg
  | 7 => (decMsca w).map .msca
  | 8 => (decMwt w).map .mwt
  | 9 => (decRegU w).map .mcnt
  | _ => none

/-- Transfer and synchronisation map of R60. -/
def decTransfer (w : Nat) : Nat → Option Instr
  | 1 => (decRegN w).map .copy
  | 2 => (decRegN w).map .copyg
  | 3 => (decRegN w).map .copys
  | 4 => (decRegN w).map .copyr
  | 8 => (decFed w).map .fbind
  | 9 => (decFdrop w).map .fdrop
  | 16 => (decHset w).map .hset
  | 17 => (decHwait w).map .hwait
  | 18 => (decHrel w).map .hrel
  | 24 => (decQmk w).map .qfence
  | 25 => (decRegF w).map .tenq
  | 26 => (decRegN w).map .tsig
  | 32 => (decBar w).map .bar
  | 33 => (decBar w).map .bara
  | 34 => (decBarw w).map .barw
  | 35 => (decImt w).map .pause
  | 40 => (decRegU w).map .role
  | 41 => (decXph w).map .xph
  | 42 => (decXrl w).map .xsnd
  | 43 => (decXrl w).map .xsel
  | 48 => (decRegN w).map .cst
  | 49 => (decRegU w).map .cld
  | 50 => (decRegF w).map .cxch
  | 56 => (decRegU w).map .pub
  | 57 => (decRegF w).map .land
  | 58 => (decRegO w).map .decl
  | 59 => (decRegO w).map .recl
  | 60 => (decRegU w).map .nstat
  | 64 => (decRegU w).map .cnt
  | _ => none

/-- Control map of R61. -/
def decControl (w : Nat) : Nat → Option Instr
  | 1 => some (.br (decJmp w))
  | 2 => (decInd w).map .brp
  | 3 => some (.call (decJmp w))
  | 4 => (decInd w).map .ret
  | 8 => (decLpf w).map .loop
  | 9 => (decImt0 w).map .lexit
  | 10 => (decLxf w).map .lix
  | 16 => (decImt0 w).map .endk
  | 17 => (decImt w).map .trap
  | 18 => (decImt0 w).map .eret
  | _ => none

/-- The map of a slot (R35). -/
def decClass (slot : Fin 7) (w op : Nat) : Option Instr :=
  match slot with
  | 0 => decScalarA w op
  | 1 => decScalar .s1 w op
  | 2 => decMemory w op
  | 3 => decVector w op
  | 4 => decTile w op
  | 5 => decTransfer w op
  | 6 => decControl w op

/-- The instruction that the slot word `w` holds in slot `slot`; none is the illegal-instruction fate of R62. The
never guard is not decoded past bits [24:21] (R39); a NOP needs zero bits [20:0] (R54). -/
def decodeSlot (slot : Fin 7) (w : Nat) : Option Instr :=
  if (decGuard w).isNever then some (.nop slot (decGuard w))
  else if fld w 25 7 = 0 then (if fld w 0 21 = 0 then some (.nop slot (decGuard w)) else none)
  else
    match decClass slot w (fld w 25 7) with
    | some i => if i.wf then some i else none
    | none => none

/-- The slots in the order in which a word of the opcode table is tried: a table word does not name its slot class
(entry 11). -/
def tableSlots : List (Fin 7) := [4, 6, 5, 3, 0, 2, 1]

/-- The first slot class of `tableSlots` in which the word is legal. -/
def tableSlot (w : Nat) : Fin 7 := ((tableSlots.find? fun s => (decodeSlot s w).isSome).getD 0)

/-- A bundle header (R31). -/
structure Header where
  d : Bool
  mask : BitVec 7
  empty : Fin 8
  p : Bool
  deriving DecidableEq, Repr

/-- Decodes a header word; none is the illegal-bundle fate of R62. -/
def decodeHeader (w : Nat) : Option Header :=
  if fld w 0 20 = 0 then some ⟨bitOf w 31, BitVec.ofNat 7 (fld w 24 7), Fin.ofNat 8 (fld w 21 3), bitOf w 20⟩
  else none

/-- Words of a bundle with this header (R30). -/
def maskCount (m : BitVec 7) : Nat := ((List.range 7).filter fun i => m.getLsbD i).length

/-- The instruction the decoder reads from an opcode-table word (one word of 32 bits). -/
def decodeTableWord (_nbits w : Nat) : Option Instr := decodeSlot (tableSlot (w % 2 ^ 32)) (w % 2 ^ 32)

/-! The encoder, from the same tables. -/

def encGuard (g : Guard) : Nat := b2n g.neg * 2 ^ 24 + g.idx.val * 2 ^ 21

def encSrc : Src → Nat
  | .s r => r.val
  | .l n => 64 + n.val
  | .imm v => 80 + v.toNat

def encVOp : VOp → Nat
  | .v r => r.val
  | .f r => 32 + r.val
  | .l n => 48 + n.val
  | .none => 63

def encScope : Scope → Nat
  | .core => 0 | .cluster => 1 | .ply => 2 | .stack => 3 | .device => 4 | .stand => 5

def encOrder : Order → Nat
  | .rlx => 0 | .acq => 1 | .rel => 2 | .ar => 3

def encElem : ElemT → Nat
  | .f32 => 0 | .bf16 => 1 | .f16 => 2 | .i32 => 4 | .i16 => 5 | .i8 => 6

def encBlk : BlkT → Nat
  | .e4m3 => 0 | .e5m2 => 1 | .e2m1 => 2

def encCvt : CvtT → Nat
  | .f32 => 0 | .f16 => 1 | .bf16 => 2 | .e4m3 => 3 | .e5m2 => 4 | .e2m1 => 5 | .i4 => 6 | .i8 => 7 | .i16 => 8
  | .i32 => 9 | .ui4 => 10 | .ui8 => 11 | .ui16 => 12 | .ui32 => 13 | .e8m0 => 14

def encCond : Cond → Nat
  | .eq => 0 | .ne => 1 | .lt => 2 | .le => 3 | .gt => 4 | .ge => 5 | .ltu => 6 | .leu => 7 | .gtu => 8 | .geu => 9

def encVCond : VCond → Nat
  | .eq => 0 | .ne => 1 | .lt => 2 | .le => 3 | .gt => 4 | .ge => 5 | .un => 6

def encRed : RedOp → Nat
  | .add => 0 | .max => 1 | .min => 2 | .amax => 3

def encRMode : RMode → Nat
  | .rne => 0 | .rz => 1 | .rdn => 2 | .rup => 3 | .rsr => 4

def encAtom : AtomOp → Nat
  | .add => 0 | .min => 1 | .max => 2 | .and => 3 | .or => 4 | .xor => 5 | .xchg => 6

def encLoadW : LoadW → Nat
  | .b => 0 | .bu => 1 | .h => 2 | .hu => 3 | .w => 4 | .wu => 5 | .d => 6

def encStoreW : StoreW → Nat
  | .b => 0 | .h => 1 | .w => 2 | .d => 3

def encMOp (m : MOp) : Nat :=
  (match m.dir with | .row => 0 | .col => 1 | .dia => 2 | .adia => 3) * 8 + m.m.val

def encHState : HState → Nat
  | .free => 0 | .filling => 1 | .full => 2 | .draining => 3

def encRegF (op : Nat) (r : RegF) : Nat :=
  op * 2 ^ 25 + encGuard r.g + b2n r.wb * 2 ^ 20 + r.d.val * 2 ^ 14 + encSrc r.a * 2 ^ 7 + encSrc r.b
def encRegU (op : Nat) (r : RegU) : Nat :=
  op * 2 ^ 25 + encGuard r.g + b2n r.wb * 2 ^ 20 + r.d.val * 2 ^ 14 + encSrc r.a * 2 ^ 7
def encRegN (op : Nat) (r : RegN) : Nat := op * 2 ^ 25 + encGuard r.g + encSrc r.a * 2 ^ 7 + encSrc r.b
def encRegO (op : Nat) (r : RegO) : Nat := op * 2 ^ 25 + encGuard r.g + encSrc r.a * 2 ^ 7
def encWim (op : Nat) (r : WimF) : Nat :=
  op * 2 ^ 25 + encGuard r.g + b2n r.wb * 2 ^ 20 + r.d.val * 2 ^ 14 + r.imm.toNat
def encAim (op : Nat) (r : AimF) : Nat :=
  op * 2 ^ 25 + encGuard r.g + b2n r.wb * 2 ^ 20 + r.d.val * 2 ^ 14 + encSrc r.a * 2 ^ 7 + r.imm.toNat
def encCmp (op : Nat) (r : CmpF) : Nat :=
  op * 2 ^ 25 + encGuard r.g + encCond r.cond * 2 ^ 17 + r.pd.val * 2 ^ 14 + encSrc r.a * 2 ^ 7 + encSrc r.b
def encPrd (op : Nat) (r : PrdF) : Nat :=
  op * 2 ^ 25 + encGuard r.g + r.pd.val * 2 ^ 6 + r.pa.val * 2 ^ 3 + r.pb.val
def encPrdU (op : Nat) (r : PrdU) : Nat := op * 2 ^ 25 + encGuard r.g + r.pd.val * 2 ^ 6 + r.pa.val * 2 ^ 3
def encSlp (op : Nat) (r : SlpF) : Nat :=
  op * 2 ^ 25 + encGuard r.g + r.ps.val * 2 ^ 18 + r.d.val * 2 ^ 12 + r.a.val * 2 ^ 6 + r.b.val
def encSys (op : Nat) (r : SysF) : Nat := op * 2 ^ 25 + encGuard r.g + r.reg.val * 2 ^ 15 + r.sr.val
def encMem (op : Nat) (g : Guard) (wb : Bool) (reg base ac : Nat) (off : BitVec 6) : Nat :=
  op * 2 ^ 25 + encGuard g + b2n wb * 2 ^ 20 + reg * 2 ^ 14 + base * 2 ^ 8 + ac * 2 ^ 6 + off.toNat
def encSyn (op : Nat) (r : SynF) : Nat :=
  op * 2 ^ 25 + encGuard r.g + r.reg.val * 2 ^ 15 + r.base.val * 2 ^ 9 + encScope r.scope * 2 ^ 6 +
    b2n r.dbl * 2 ^ 5 + r.off.toNat
def encAtm (op : Nat) (r : AtmF) : Nat :=
  op * 2 ^ 25 + encGuard r.g + r.reg.val * 2 ^ 15 + r.base.val * 2 ^ 9 + encScope r.scope * 2 ^ 6 +
    encOrder r.ord * 2 ^ 4 + b2n r.dbl * 2 ^ 3
def encCsx (r : CsxF) : Nat :=
  (48 + b2n r.dbl * 8 + b2n r.acqFail * 4 + encOrder r.succ) * 2 ^ 25 + encGuard r.g + r.reg.val * 2 ^ 15 +
    r.base.val * 2 ^ 9 + r.new.val * 2 ^ 3 + encScope r.scope
def encOrd (op : Nat) (r : OrdF) : Nat := op * 2 ^ 25 + encGuard r.g + encScope r.scope * 2 ^ 18
def encVecW (op : Nat) (g : Guard) (d a : VOp) (b t : Nat) : Nat :=
  op * 2 ^ 25 + encGuard g + encVOp d * 2 ^ 15 + encVOp a * 2 ^ 9 + b * 2 ^ 3 + t
def encVec (op : Nat) (r : VecF) : Nat := encVecW op r.g r.d r.a (encVOp r.b) (encElem r.t)
def encVecU (op : Nat) (r : VecU) : Nat := encVecW op r.g r.d r.a 0 (encElem r.t)
def encVecL (op : Nat) (r : VecL) : Nat := encVecW op r.g r.d r.a (encVOp r.b) 0
def encVecQ (op : Nat) (r : VecQ) : Nat := encVecW op r.g r.d r.a r.b.val (encBlk r.fmt)
def encVcv (r : VcvF) : Nat :=
  (32 + encRMode r.rm) * 2 ^ 25 + encGuard r.g + r.vd.val * 2 ^ 16 + r.vs.val * 2 ^ 11 + encCvt r.tgt * 2 ^ 7 +
    encCvt r.frm * 2 ^ 3 + r.part.val
def encVcm (op : Nat) (r : VcmF) : Nat :=
  op * 2 ^ 25 + encGuard r.g + encVCond r.cond * 2 ^ 18 + r.kd.val * 2 ^ 15 + encVOp r.a * 2 ^ 9 +
    encVOp r.b * 2 ^ 3 + encElem r.t
def encVsc (op : Nat) (r : VscF) : Nat :=
  op * 2 ^ 25 + encGuard r.g + encVOp r.d * 2 ^ 15 + encSrc r.src * 2 ^ 8 + encElem r.t
def encVmx (op : Nat) (r : VmxF) : Nat :=
  op * 2 ^ 25 + encGuard r.g + encVOp r.v * 2 ^ 15 + encMOp r.m * 2 ^ 10 + r.idx.val * 2 ^ 4
def encTil (op : Nat) (g : Guard) (a b : Src) (ctl : Nat) : Nat :=
  op * 2 ^ 25 + encGuard g + encSrc a * 2 ^ 14 + encSrc b * 2 ^ 7 + ctl
def encHdl (op : Nat) (g : Guard) (h : Fin 256) (rest : Nat) : Nat :=
  op * 2 ^ 25 + encGuard g + h.val * 2 ^ 13 + rest
def encXrl (op : Nat) (r : XrlF) : Nat :=
  op * 2 ^ 25 + encGuard r.g + encVOp r.v * 2 ^ 15 + b2n r.west * 2 ^ 14 + r.tk.toNat
def encImt (op : Nat) (g : Guard) (imm : Nat) : Nat := op * 2 ^ 25 + encGuard g + imm

/-- The slot word of an instruction, or none for an event (events have no encoding). -/
def encode : Instr → Option Nat
  | .nop _ g => some (encGuard g)
  | .add _ r => some (encRegF 1 r)
  | .sub _ r => some (encRegF 2 r)
  | .addi _ r => some (encAim 3 r)
  | .mul r => some (encRegF 4 r)
  | .mulh r => some (encRegF 5 r)
  | .div r => some (encRegF 6 r)
  | .divu r => some (encRegF 7 r)
  | .rem r => some (encRegF 8 r)
  | .remu r => some (encRegF 9 r)
  | .and _ r => some (encRegF 10 r)
  | .or _ r => some (encRegF 11 r)
  | .xor _ r => some (encRegF 12 r)
  | .andn _ r => some (encRegF 13 r)
  | .shl _ r => some (encRegF 14 r)
  | .shr _ r => some (encRegF 15 r)
  | .sar _ r => some (encRegF 16 r)
  | .rot _ r => some (encRegF 17 r)
  | .min _ r => some (encRegF 18 r)
  | .max _ r => some (encRegF 19 r)
  | .minu _ r => some (encRegF 20 r)
  | .maxu _ r => some (encRegF 21 r)
  | .cmp _ r => some (encCmp 22 r)
  | .sel _ r => some (encSlp 23 r)
  | .clz _ r => some (encRegU 24 r)
  | .popc _ r => some (encRegU 25 r)
  | .movi _ r => some (encWim 26 r)
  | .movh _ r => some (encWim 27 r)
  | .bfx _ r => some (encRegF 28 r)
  | .bfi _ r => some (encRegF 29 r)
  | .mada r => some (encRegF 30 r)
  | .pand _ r => some (encPrd 32 r)
  | .por _ r => some (encPrd 33 r)
  | .pxor _ r => some (encPrd 34 r)
  | .pnot _ r => some (encPrdU 35 r)
  | .srd r => some (encSys 48 r)
  | .swr r => some (encSys 49 r)
  | .lds r => some (encMem (1 + encLoadW r.w) r.g r.wb r.reg.val r.base.val r.ac.val r.off)
  | .ld r => some (encMem (17 + encLoadW r.w) r.g r.wb r.reg.val r.base.val r.ac.val r.off)
  | .sts r => some (encMem (8 + encStoreW r.w) r.g false r.reg.val r.base.val r.ac.val r.off)
  | .st r => some (encMem (24 + encStoreW r.w) r.g false r.reg.val r.base.val r.ac.val r.off)
  | .ldv r => some (encMem 12 r.g r.wb r.reg.val r.base.val r.ac.val r.off)
  | .stv r => some (encMem 13 r.g false r.reg.val r.base.val r.ac.val r.off)
  | .lda r => some (encSyn 32 r)
  | .stl r => some (encSyn 33 r)
  | .atom r => some (encAtm (40 + encAtom r.op) r)
  | .cas r => some (encCsx r)
  | .phase r => some (encOrd 64 r)
  | .fence r => some (encOrd 65 r)
  | .tagl r => some (encRegU 72 r)
  | .tagi r => some (encRegN 73 r)
  | .tagx r => some (encRegO 74 r)
  | .rgwb r => some (encRegO 75 r)
  | .vadd r => some (encVec 1 r)
  | .vsub r => some (encVec 2 r)
  | .vmul r => some (encVec 3 r)
  | .vfma r => some (encVec 4 r)
  | .vmax r => some (encVec 5 r)
  | .vmin r => some (encVec 6 r)
  | .vmaxu r => some (encVec 7 r)
  | .vminu r => some (encVec 8 r)
  | .vabs r => some (encVecU 9 r)
  | .vneg r => some (encVecU 10 r)
  | .vcmp r => some (encVcm 16 r)
  | .vcmpu r => some (encVcm 17 r)
  | .vand r => some (encVecL 24 r)
  | .vor r => some (encVecL 25 r)
  | .vxor r => some (encVecL 26 r)
  | .vshl r => some (encVec 27 r)
  | .vshr r => some (encVec 28 r)
  | .vsar r => some (encVec 29 r)
  | .vqnt r => some (encVecQ 40 r)
  | .vscl r => some (encVecQ 41 r)
  | .vexp2 r => some (encVecU 48 r)
  | .vrcp r => some (encVecU 49 r)
  | .vrsq r => some (encVecU 50 r)
  | .vperm r => some (encVec 57 r)
  | .vbc r => some (encVsc 58 r)
  | .vidx r => some (encVecU 59 r)
  | .vmrd r => some (encVmx 64 r)
  | .vmwr r => some (encVmx 65 r)
  | .vsel r => some (encVecW 18 r.g r.d r.a (encVOp r.b) r.m.val)
  | .vred r => some (encVecW 56 r.g r.d r.a (encRed r.op) (encElem r.t))
  | .vcvt r => some (encVcv r)
  | .mcfg r => some (encTil 1 r.g r.a r.b (b2n r.pair * 2 ^ 4 + r.reg.val))
  | .mld r => some (encTil 2 r.g r.a r.b (encMOp r.m))
  | .mst r => some (encTil 3 r.g r.a r.b (encMOp r.m))
  | .mstPs r => some (encTil 3 r.g r.a r.b (64 + b2n r.ps))
  | .mz r => some (encTil 4 r.g (.s 0) (.s 0) r.m.val)
  | .mzPs r => some (encTil 4 r.g (.s 0) (.s 0) (64 + b2n r.ps))
  | .mta r => some (encTil 5 r.g r.a r.b
      (b2n r.asp * 2 ^ 6 + b2n r.bsp * 2 ^ 5 + b2n r.acc * 2 ^ 4 + b2n r.ps * 2 ^ 3 + r.qsel.val * 2))
  | .mtg r => some (encTil 6 r.g r.a r.b (b2n r.asp * 2 ^ 6 + 2 ^ 5 + 2 ^ 4 + b2n r.ps * 2 ^ 3 + r.qsel.val * 2))
  | .msca r => some (encTil 7 r.g (.s 0) (.s 0)
      (b2n r.ps * 2 ^ 6 + r.ssel.val * 2 ^ 4 + b2n r.nosc * 2 ^ 3 + r.c.val))
  | .mwt r => some (encTil 8 r.g (.s 0) (.s 0) r.n.val)
  | .mcnt r => some (encRegU 9 r)
  | .copy r => some (encRegN 1 r)
  | .copyg r => some (encRegN 2 r)
  | .copys r => some (encRegN 3 r)
  | .copyr r => some (encRegN 4 r)
  | .tenq r => some (encRegF 25 r)
  | .tsig r => some (encRegN 26 r)
  | .role r => some (encRegU 40 r)
  | .xsnd r => some (encXrl 42 r)
  | .xsel r => some (encXrl 43 r)
  | .cst r => some (encRegN 48 r)
  | .cld r => some (encRegU 49 r)
  | .cxch r => some (encRegF 50 r)
  | .pub r => some (encRegU 56 r)
  | .land r => some (encRegF 57 r)
  | .decl r => some (encRegO 58 r)
  | .recl r => some (encRegO 59 r)
  | .nstat r => some (encRegU 60 r)
  | .cnt r => some (encRegU 64 r)
  | .fbind r => some (8 * 2 ^ 25 + encGuard r.g + r.f.val * 2 ^ 18 + encSrc r.a * 2 ^ 7 + encSrc r.b)
  | .fdrop r => some (9 * 2 ^ 25 + encGuard r.g + r.f.val * 2 ^ 18)
  | .hset r => some (encHdl 16 r.g r.h (b2n r.drain * 2 ^ 12 + 2 ^ 11 + encSrc r.n))
  | .hwait r => some (encHdl 17 r.g r.h (encHState r.st * 2 ^ 11 + b2n r.ph * 2 ^ 10))
  | .hrel r => some (encHdl 18 r.g r.h 0)
  | .qfence r => some (encImt 24 r.g r.qm.toNat)
  | .bar r => some (encImt 32 r.g (r.b.val * 2 ^ 17))
  | .bara r => some (encImt 33 r.g (r.b.val * 2 ^ 17))
  | .barw r => some (encImt 34 r.g (r.b.val * 2 ^ 17 + b2n r.ph * 2 ^ 16))
  | .pause r => some (encImt 35 r.g r.imm.toNat)
  | .xph r => some (encImt 41 r.g r.b.val)
  | .br r => some (encImt 1 r.g r.off.toNat)
  | .brp r => some (encImt 2 r.g (encSrc r.src))
  | .call r => some (encImt 3 r.g r.off.toNat)
  | .ret r => some (encImt 4 r.g (encSrc r.src))
  | .loop r => some (encImt 8 r.g (encSrc r.cnt * 2 ^ 14 + r.fin.toNat))
  | .lexit g => some (encImt 9 g 0)
  | .lix r => some (10 * 2 ^ 25 + encGuard r.g + r.d.val * 2 ^ 15 + r.lv.val * 2 ^ 12)
  | .endk g => some (encImt 16 g 0)
  | .trap r => some (encImt 17 r.g r.imm.toNat)
  | .eret g => some (encImt 18 g 0)
  | _ => none

end Sys2Proof
end

