-- ==== Sys2Proof/Machine/State.lean ====
section
/-! DEFINITION. The state of the device as plain data: everything the spec gives the ZH-1296, with the model's own
scheduler fields (entry 1), and the state after power-on. -/

namespace Sys2Proof.Machine

/-- Why the machine as a whole stops. The spec gives the device no such stop: the type is empty, and no step faults. -/
inductive Fault where
  deriving DecidableEq, Repr

/-- Why an operation has no meaning. -/
inductive Refusal where
  /-- The arm of `exec` for the named operation is not modelled. Raised by `exec` only. Safe: nothing is claimed. -/
  | notModelled (mnemonic : String)
  deriving DecidableEq, Repr

/-- Byte memory in canonical form: addresses strictly rising, no byte equal to what an unlisted address reads. -/
abbrev Memory := List Host.Cell

/-- What an unlisted byte reads as (entry 3). -/
def Memory.unlisted : Byte := 0

/-- One byte. -/
def Memory.read (m : Memory) (a : Nat) : Byte :=
  match m with
  | [] => Memory.unlisted
  | (k, b) :: t => if a = k then b else if a < k then Memory.unlisted else Memory.read t a

/-- Writes one byte, keeping the canonical form. -/
def Memory.write (m : Memory) (a : Nat) (v : Byte) : Memory :=
  match m with
  | [] => if v = Memory.unlisted then [] else [(a, v)]
  | (k, b) :: t =>
    if a = k then (if v = Memory.unlisted then t else (a, v) :: t)
    else if a < k then (if v = Memory.unlisted then (k, b) :: t else (a, v) :: (k, b) :: t)
    else (k, b) :: Memory.write t a v

/-- The canonical form. -/
def Memory.wf : Memory → Bool
  | [] => true
  | (a, v) :: t => v != Memory.unlisted && (match t with | [] => true | (b, _) :: _ => decide (a < b)) && Memory.wf t

/-- Writes the bytes in list order. -/
def Memory.writes (m : Memory) (ws : List Host.Cell) : Memory := ws.foldl (fun m c => m.write c.1 c.2) m

/-- `n` bytes from `a` upward. -/
def Memory.readN (m : Memory) (a n : Nat) : List Byte := (List.range n).map fun i => m.read (a + i)

/-- The cells of consecutive bytes from `a`. -/
def cellsAt (a : Nat) (bs : List Byte) : List Host.Cell := bs.mapIdx fun i b => (a + i, b)

/-- Sparse numbered data: the last entry for a key decides. -/
def lookupD {α : Type} (l : List (Nat × α)) (k : Nat) (d : α) : α :=
  match l.find? (fun e => e.1 == k) with
  | some e => e.2
  | none => d

/-- Replaces the entry of a key. -/
def insertK {α : Type} (l : List (Nat × α)) (k : Nat) (v : α) : List (Nat × α) :=
  (k, v) :: l.filter (fun e => e.1 != k)

/-! ### The core -/

/-- Register file: scalar, predicate, mask, vector registers and bypass latches (R11, R44). -/
structure RegFile where
  s : Vector Word 64
  p : BitVec 8
  k : Vector Word 8
  v : Vector Vec 32
  lat : Vector Vec 12
  deriving DecidableEq, Repr

def RegFile.zero : RegFile :=
  ⟨Vector.replicate 64 0, 0, Vector.replicate 8 0, Vector.replicate 32 0, Vector.replicate 12 0⟩

/-- What a landing result writes besides latches (R43, R185, R300). -/
inductive RegWrite where
  | s (i : Fin 64) (x : Word)
  | p (i : Fin 8) (x : Bool)
  | k (i : Fin 8) (x : Word)
  | v (i : Fin 32) (x : Vec)
  | feed (f : Fin 8) (win : Nat) (x : Vec)
  | m (r : MOp) (idx : Word) (mask : Word) (x : Vec)
  deriving DecidableEq, Repr

/-- An acquire refresh to be applied at landing: scope and the stamp of the line order at its tick T (R229). -/
structure Refresh where
  scope : Scope
  stamp : Nat
  deriving DecidableEq, Repr

/-- A result in flight (R43): it lands at virtual cycle `due`; `need` names the request whose reply it waits for. -/
structure Flight where
  due : Nat
  cyc : Nat
  slot : Nat
  latch : Option Vec
  writes : List RegWrite
  flags : Word
  need : Option Nat
  refresh : Option Refresh
  deriving DecidableEq, Repr

/-- A window taken or held, with the offset of an uncorrectable error that reading it met (R164). -/
abbrev Win := Vec × Option Nat

/-- The operand snapshot of one uncommitted slot, as a restored frame gave it: the registers and windows that the slot reads (R90, R91). -/
structure SlotSnap where
  slot : Nat
  regs : RegFile
  wins : List (Nat × Win)
  deriving DecidableEq, Repr

/-- Loop stack entry (R72). -/
structure Loop where
  index : Word
  count : Word
  start : Word
  fin : Word
  deriving DecidableEq, Repr

/-- Control effect a bundle applies at completion (R125). -/
inductive Ctl where
  | goto (target : Word) (kind : Nat)
  | push (l : Loop)
  | skip (target : Word)
  | leave
  | fin
  | eret
  deriving DecidableEq, Repr

/-- The bundle at the position: its stop state DONE, MASK and issue cycle (R90), its decoded slots that have not
committed, a system register write that takes effect at the next virtual cycle (R99), the snapshots that a restore has loaded for
slots to come, and the ticks that its bank conflicts cost with S2's access and without it (R254). -/
structure Bundle where
  addr : Nat
  cyc : Nat
  tick : Nat
  mask : BitVec 7
  done : BitVec 7
  empty : Nat
  p : Bool
  ctl : Option Ctl
  swr : Option (Nat × Word)
  slots : List Instr
  snaps : List SlotSnap := []
  bank : Nat × Nat := (0, 0)
  deriving DecidableEq, Repr

/-- Where the sequencer stands (R73, R81, R103). -/
inductive Phase where
  | ready
  | issuing
  | gap
  | boundary
  | drain
  | drained
  deriving DecidableEq, Repr

/-- Progress of a slot that waits within its issue (R90); PUB keeps what it copied at its issue, and the end of its wait for a record
(R401). -/
inductive Stage where
  | pauseUntil (t : Nat)
  | barSent (b : Fin 16)
  | asked (id : Nat)
  | answered (id : Nat) (val : Word)
  | publishing (desc : List Nat) (cons : List Word) (until_ : Option Nat)
  | selecting (t : Nat)
  | sending
  | queueFull
  | captured (x : Vec)
  | over
  deriving DecidableEq, Repr

/-- A trap as it is delivered (R89, R269). -/
structure Trap where
  code : Nat
  slot : Nat
  einfo : Word
  gva : Word
  detail0 : Word
  deriving DecidableEq, Repr

/-- Trap save area (R93). -/
structure TrapSave where
  lat : Vector Vec 12
  flights : List Flight
  bun : Option Bundle
  snap : Option RegFile
  wins : List (Nat × Win)
  stage : Option Stage
  deriving DecidableEq, Repr

/-- Context states (R77). -/
inductive CtxState where
  | empty | standby | running | frozen | parked | preempted | done
  deriving DecidableEq, Repr

/-- Context system registers that SWR or the traps write (R97). -/
structure SysRegs where
  cstat : Word
  fctl : Word
  srs : Word
  tvec : Word
  tmask : Word
  epos : Word
  ecause : Word
  einfo : Word
  edone : Word
  estat : Word
  pkey : Vector Word 4
  chunk : Word
  pace : Word
  deriving DecidableEq, Repr

/-- A context (R71). `dbgMet` is a debug stop that the stopped member has met (R79); before tick `bankUntil` the core is frozen by its own
bank conflicts (R254). -/
structure Ctx where
  st : CtxState
  part : Fin 24
  task : Nat
  span : Bool
  gang : Nat
  role : Nat
  gid : Nat
  pos : Nat
  loops : List Loop
  regs : RegFile
  sys : SysRegs
  vcyc : Nat
  frzt : Nat
  phase : Phase
  bun : Option Bundle
  flights : List Flight
  snap : Option RegFile
  wins : List (Nat × Win)
  stage : Option Stage
  save : Option TrapSave
  asyncQ : List Word
  hazard : Option Nat
  epoch : Option Nat
  broken : Bool
  railTrap : List Word
  arrived : BitVec 16
  replay : List Nat
  noStop : Bool
  dbgMet : Bool := false
  bankUntil : Nat := 0
  fresh : Nat
  freshAll : Nat
  seen : List (Nat × Nat)
  copyNo : Nat
  ended : Bool
  deriving DecidableEq, Repr

/-- Granule states (R260); `since` is the stamp of the line order when the fill began (R261), `pa` where its page lies. -/
inductive Gran where
  | unfilled
  | filling (since pa : Nat)
  | clean
  | dirty
  | writing (left : Nat) (again : Bool)
  | faulted (reason level : Nat)
  deriving DecidableEq, Repr

/-- Region descriptor (R258). -/
structure Region where
  gva : Word
  size : Nat
  spa : Nat
  refill : Bool
  span : Nat
  mode : Nat
  deriving DecidableEq, Repr

/-- A leaf held by the translation cache (R267): page number and size of the virtual page, its physical page, and the partition whose
tables gave it. -/
structure Leaf where
  big : Bool
  vpn : Nat
  pa : Nat
  w : Bool
  part : Fin 24 := 0
  deriving DecidableEq, Repr

/-- A walk: pending (a STATE 2 entry included), or ended in a fault that the waiting access is about to meet (R266). -/
inductive WalkSt where
  | pending
  | ready
  deriving DecidableEq, Repr

/-- Tag table way (R272); `key` is GVA[63:11]. -/
structure TagWay where
  set : Nat
  way : Nat
  key : Nat
  slot : Nat
  deriving DecidableEq, Repr

/-- Handle (R276); WAIT is computed. -/
structure Handle where
  exp : Nat
  arr : Nat
  err : Bool
  ph : Bool
  st : HState
  deriving DecidableEq, Repr

/-- Source of a term-engine operand: m-operand word, or scratchpad base with its pitch word (R192, R193). -/
inductive TOperand where
  | m (w : Word)
  | sp (base pitch : Word)
  deriving DecidableEq, Repr

/-- What a tile operation does, with the register values it captured at issue (R190, R194). -/
inductive TileWork where
  | mld (m : MOp) (base pitch : Word)
  | mst (m : MOp) (base pitch : Word)
  | mstPs (ps : Bool) (base pitch : Word)
  | mz (m : Fin 8)
  | mzPs (ps : Bool)
  | mta (a b : TOperand) (fmt : Word) (acc ps : Bool) (wacc : Fin 8) (spare : Vec)
  | mtg (a : TOperand) (base pitch : Word) (groups : List Word) (fmt : Word) (ps : Bool) (wacc : Fin 8) (spare : Vec)
  | msca (ps : Bool) (c : Fin 8) (scale : Option Vec)
  deriving DecidableEq, Repr

/-- What a tile operation writes at its completion (R197): an m register up to a row, a partial sum with its GPST,
scratchpad bytes by logical offset, and additions to the term counters; `terms` are the terms that its array applies on each tick from
its first (R438). -/
structure TileEff where
  m : Option (Fin 8 × BitVec 262144 × Nat)
  ps : Option (Bool × BitVec 524288 × Int × Option Bool)
  cells : List Host.Cell
  cnt : List Nat
  terms : List Nat := []
  deriving DecidableEq, Repr

/-- What an operation's operands hold at its start: scratchpad, matrix registers, partial sums and GPST (R197, R198). -/
structure TileSeen where
  spm : Memory
  m : Vector (BitVec 262144) 8
  ps : Vector (BitVec 524288) 2
  pst : Word
  deriving DecidableEq, Repr

/-- A write of another party that a tile operation races with, by scratchpad byte, or by register, row and column: the value before and
the value written (R186, R198). -/
structure Raced where
  reg : Option (Fin 8)
  row : Nat
  col : Nat
  was : Nat
  now : Nat
  deriving DecidableEq, Repr

/-- A tile operation in the engine queue (R196, R197). `eff` is what its operands gave when it read them, `seen` what they held then, and
`raced` what others have written meanwhile; `fence` is the issue number of the first QFENCE behind it that names the term engine; `done`
once it has written. -/
structure TileOp where
  work : TileWork
  eff : Option TileEff
  seq : Nat
  addr : Nat
  entered : Nat
  start : Option Nat
  finish : Nat
  stopped : Bool
  seen : Option TileSeen := none
  raced : List Raced := []
  fence : Option Nat := none
  done : Bool := false
  deriving DecidableEq, Repr

/-- What a complete tile operation overwrote, until an MWT covers it (R198): scratchpad bytes, and an m register's rows. -/
structure TilePast where
  seq : Nat
  fence : Option Nat
  cells : List Host.Cell
  m : Option (Fin 8 × BitVec 262144 × Nat)
  deriving DecidableEq, Repr

/-- Term engine and matrix state (R190, R208). `greg` are registers 0-15; number 5 is GPST. `past` are the complete operations that no MWT
has covered, `mBad` the m registers with an uncorrectable error (R199). -/
structure Tile where
  greg : Vector Word 16
  m : Vector (BitVec 262144) 8
  ps : Vector (BitVec 524288) 2
  cnt : Vector Word 32
  ops : List TileOp
  fPrev : Nat
  past : List TilePast := []
  mBad : List (Fin 8) := []
  deriving DecidableEq, Repr

/-- Kinds of copy (R304). -/
inductive CopyKind where
  | move | gather | scatter | reduce
  deriving DecidableEq, Repr

/-- A tensor layout record as the engine reads it (R280). -/
structure Layout where
  base : Word
  fmode : Bool
  blk : Bool
  fmt : Nat
  space : Bool
  rank : Nat
  fill : Nat
  scale : Word
  spare : Word
  stride : List Int
  ext : List Nat
  deriving DecidableEq, Repr

/-- A copy descriptor with both of its layout records (R283), as read at release. -/
structure Box where
  ext : List Nat
  idx : Nat
  op : Nat
  rtype : Nat
  hmode : Bool
  sc : List Int
  dc : List Int
  src : Layout
  dst : Layout
  deriving DecidableEq, Repr

/-- A copy command of the time-sorted buffer (R286), issued at `pos`, and its progress (R287, R294): `st` is 0 waiting, 1 joined and
not yet read, 2 running, 3 stopped, 4 aborted; `next` the unit it goes on with, `held` credits not yet applied,
`remain` the bytes not yet credited, `clip` a clip credit that waits (R291), `late` the box rows whose index entry could not be read for
it, `again` that the present unit has been credited although it is to be done again. -/
structure Copy where
  id : Nat
  kind : CopyKind
  desc : Nat
  rel : Nat
  u : Nat
  q : Fin 4
  ac : Fin 4
  no : Nat
  st : Nat
  joined : Nat
  box : Option Box
  next : Nat
  held : List Nat
  remain : Nat
  unacked : Nat
  handle : Fin 256
  hmode : Bool
  reason : Nat
  pos : Nat := 0
  clip : Nat := 0
  late : List Nat := []
  again : Bool := false
  deriving DecidableEq, Repr

/-- A pending queue fence: the queues it names and the issue number of the QFENCE (R312). -/
structure Fence where
  qm : BitVec 7
  seq : Nat
  deriving DecidableEq, Repr

/-- Stream pattern (R299). -/
structure Pattern where
  gph : Bool
  gate : Fin 256
  gen : Bool
  fmt : Nat
  out : Bool
  base : Nat
  e : List Nat
  s : List (BitVec 32)
  deriving DecidableEq, Repr

/-- A bound feed: position, pass, prefetched windows (inbound) and reserved windows (outbound) (R300). -/
structure Feed where
  pat : Pattern
  win : Nat
  pass : Nat
  fetchWin : Nat
  fetchPass : Nat
  gated : Bool
  buf : List Win
  res : List (Nat × Nat × Option Vec)
  deriving DecidableEq, Repr

/-- Inbound table entry: a notice or a landing buffer (R376, R384). -/
inductive InEntry where
  | notice (n : Notice) (src : PortName) (st : Nat) (loc : Word) (defer : Nat)
  | landing (tag : BitVec 32) (base size used : Nat) (h : Fin 256)
  deriving DecidableEq, Repr

/-- Inbound entry with its index and its arrival order. -/
structure InSlot where
  idx : Nat
  order : Nat
  e : InEntry
  deriving DecidableEq, Repr

/-- Outbound block record (R379). `claims` are the pulls that claim it, `owed` chunks answered in error that are to be asked for again, by
pull and offset, and `served` the pulls whose last chunk has been served all the same (R383, R396). -/
structure Block where
  idx : Nat
  tag : BitVec 32
  gen : Nat
  flt : Bool
  rcnt : Nat
  st : Nat
  prio : Nat
  spm : Bool
  size : Nat
  loc : Word
  due : Nat
  timeout : Nat
  reads : Nat
  claims : List Nat
  owed : List (Nat × Nat) := []
  served : List Nat := []
  deriving DecidableEq, Repr

/-- Operations of the port-engine queue (R311, R400). -/
inductive PortOp where
  | pub (block : BitVec 32) (cons : List Word) (n : Notice)
  | land (tag : BitVec 32) (h : Fin 256) (base size : Nat) (takes : Bool)
  | decl (idx : Nat)
  | recl (block : BitVec 32)
  deriving DecidableEq, Repr

/-- A pull from its grant on (R386, R391): entry, chunk size, chunks requested, in all and answered, landing offset,
landing buffer with the bytes taken from it, bytes credited and handle; `fate` is what another device has answered so far
(0 served, 1 withdrawn, 2 deferred), `path` the hops and the port that its first chunk took (R410). -/
structure Pull where
  id : Nat
  idx : Nat
  chunk : Nat
  next : Nat
  count : Nat
  resolved : Nat
  withdrawn : Bool
  base : Nat
  buf : Nat
  took : Nat
  credited : Nat
  h : Fin 256
  fate : Nat
  path : Option (Nat × Nat) := none
  deriving DecidableEq, Repr

/-- Port engine (R376-R405): `freeAt` is the tick from which it can serve the next chunk, `idleFrom` the tick from
which its scheduler is free, `keys` the ranking keys as the scheduler uses them on this tick (R387); `waits` are the chunk requests that it
has begun and not answered, in arrival order, by block, pull and offset (R394). -/
structure Port where
  inb : List InSlot
  order : Nat
  blocks : List Block
  ops : List (Nat × PortOp)
  pulls : List Pull
  bucket : Nat
  outstanding : Nat
  lastGrant : Nat
  idleFrom : Nat
  freeAt : Nat
  keys : List Nat
  waits : List (Nat × Nat × Nat) := []
  deriving DecidableEq, Repr

/-- An unacknowledged store or unbound load of the context (R228); `plain` unless it is a store that R224 does not list: STL, or a line of
a granule's write-back. -/
structure Tok where
  id : Nat
  store : Bool
  remote : Bool
  cls : Fin 4
  clearing : Bool
  plain : Bool
  deriving DecidableEq, Repr

/-- Debug and command registers of one core (R96, R297, R445). -/
structure CoreRegs where
  dbgctl : Word
  dbgsel : Word
  cpyErr : Bool
  ctxErr : Vector Bool 2
  ctxBusy : Vector Bool 2
  ctxCause : Vector (BitVec 8) 2
  ctxFrm : Vector Word 2
  deriving DecidableEq, Repr

/-- A core (R11). `lastQ` is the copy queue that the transfer engine served last (R288), `creditAt` the tick of each queue's last credit
(R291), `pend` what was incomplete at the turn of the tick (R312); `ev` are E0-E24, `evSeen` what the last sweep saw of them (R439),
`evTick` what they were before the events of this tick (R449); `fetchBuf` the bank words that its fetch buffer holds, newest first (R254);
`hist` are the term-engine and vector counts of the last forecasts, newest first (R329); `meshTok` the tokens of its meter (R428), none
while it has given none since its cluster joined its partition. -/
structure Core where
  act : Ctx
  sby : Ctx
  spm : Memory
  spBad : List Nat
  regions : Vector Region 64
  gran : List (Nat × Gran)
  tlb : List Leaf
  walks : List (Nat × WalkSt)
  tags : List TagWay
  fetchBuf : List Nat
  tile : Tile
  handles : Vector Handle 256
  copies : List Copy
  lastQ : Fin 4 := 0
  creditAt : Vector Nat 4 := Vector.replicate 4 0
  fences : List Fence
  pend : List (Nat × Nat) := []
  feeds : Vector (Option Feed) 8
  port : Port
  toks : List Tok
  sendBuf : List Nat
  ev : Vector (BitVec 32) 25
  evSeen : Vector (BitVec 32) 25
  evTick : Vector (BitVec 32) 25
  hist : List (BitVec 32 × BitVec 32)
  meshTok : Option Nat := none
  regsx : CoreRegs
  deriving DecidableEq, Repr

/-! ### Requests on their way -/

/-- What a global or peer request does where it is applied (R221, R226). -/
inductive ReqKind where
  | load
  | lda
  | store
  | stl
  | atom (op : AtomOp)
  | cas (cmp : Word)
  | copyWrite (copy credit : Nat) (nib : List Byte) (spm : Option CoreKey)
  | copyReduce (copy op rtype : Nat)
  | fillBack (gran : Nat)
  | peerLoad (to_ : CoreKey)
  | peerStore (to_ : CoreKey)
  deriving DecidableEq, Repr

/-- A request of a core. `pa` is its physical address, or the peer's scratchpad offset. `bad` is 0, a remote reason 1-4, 0x13 for a machine
check, or 0x10000 + 256 × reason + level for a peer's page fault; for a write of a copy, the reason that stops the copy; `held` marks a
request that has been refused and stands as a replay entry until it is sent again. `least` is the stamp that the acquire points before its
issue set (R227); `sent` is the tick at which a remote request left the device, 0 before; `refill` says that the line's tag had been started
again (R223); `fault` is the faulting GVA of a peer's page fault (R256). -/
structure Req where
  id : Nat
  kind : ReqKind
  key : CoreKey
  part : Fin 24
  ctx : Nat
  gva : Word
  pa : Nat
  size : Nat
  sext : Bool
  data : Nat
  cls : Fin 4
  scope : Scope
  acq : Bool
  acqFail : Bool
  remote : Option Nat
  applied : Bool
  sent : Nat
  tag : BitVec 32
  bad : Nat
  okay : Bool
  least : Nat
  refill : Bool
  slot : Nat
  pos : Nat
  issue : Nat
  held : Bool
  fault : Word := 0
  injected : Bool := false
  queue : Fin 4 := 0
  deriving DecidableEq, Repr

/-- A slice line (R220, R223, R28): sequence tag, error mark with the bytes written since, whether the slice has dropped the line so
that its next fill starts the tag again, the home slice that holds it, and a fill that has started the tag again and that no trace record has
marked yet. -/
structure Line where
  tag : BitVec 32
  bad : Option (BitVec 128)
  again : Bool
  home : Nat
  restarted : Bool := false
  deriving DecidableEq, Repr

/-- An older value of a byte: address, stamp of the write that replaced it, value before. -/
structure Older where
  pa : Nat
  stamp : Nat
  val : Byte
  deriving DecidableEq, Repr

/-! ### Ply, Clearing, rails -/

/-- Power states (R16). -/
inductive PState where
  | p0 | p1 | p2 | p3
  deriving DecidableEq, Repr

/-- A Clearing entry (R357), with the address word and the core of the instruction that sent it. -/
structure CEntry where
  cl : Nat
  csl : Nat
  kind : Nat
  op : Nat
  dbl : Bool
  addr : Nat
  data : Word
  word : Word
  req : Nat
  key : Option CoreKey
  deriving DecidableEq, Repr

/-- A ply: PLYCTL (R18) with the state that its present transition leads to, its mirror and resynchronisation (R369, R370). -/
structure Ply where
  st : PState
  target : PState
  auto : Bool
  goal : PState
  busy : Bool
  err : Bool
  idle : Nat
  mirror : Memory
  stale : Bool
  buffer : List CEntry
  bad : Bool
  deriving DecidableEq, Repr

/-- A station queue entry (R363). -/
structure CQueued where
  station : Nat
  part : Nat
  at_ : Nat
  e : CEntry
  deriving DecidableEq, Repr

/-- A column-0 beat in flight (R364, R365). -/
structure Beat where
  id : Nat
  station : Nat
  part : Nat
  sent : Nat
  entries : List CEntry
  failed : Bool
  deriving DecidableEq, Repr

/-- The Clearing as a whole (R355-R371). -/
structure Clearing where
  keeper : Memory
  queue : List CQueued
  beats : List Beat
  resend : List Beat
  shadow : List (Nat × BitVec 13)
  active : List (Nat × BitVec 13)
  next : List (Nat × BitVec 13)
  busy : Bool
  err : Bool
  commitAt : Nat
  resyncReq : List Nat
  resyncRun : List Nat
  resyncF : Nat
  deriving DecidableEq, Repr

/-- A rail beat or a beat still in a send buffer, with the gang and the epoch of the phase that sent it (R339, R342, R345). -/
structure RailBeat where
  id : Nat
  cl : Nat
  west : Bool
  strip : Nat
  tick : Nat
  from_ : CoreKey
  x : Vec
  entered : Bool
  dead : Option (Nat × Nat)
  gid : Nat := 0
  epoch : Nat := 0
  deriving DecidableEq, Repr

/-- A gang barrier (R346); COUNT is computed. -/
structure Barrier where
  ph : Bool
  arr : BitVec 96
  xph : Bool
  deriving DecidableEq, Repr

/-- What the root keeps of a saved member besides its frame: what R87 gives no place (entry 14), and the port tables, which messages
reach meanwhile (R85). `blockWords` are the block records as the frame was written, `res` the windows that outbound feeds still owe. -/
structure Extra where
  bun : Option Bundle
  phase : Phase
  flights : List Flight
  snap : Option RegFile
  wins : List (Nat × Win)
  stage : Option Stage
  save : Option TrapSave
  asyncQ : List Word
  res : Vector (List (Nat × Nat × Option Vec)) 8
  replay : List Nat
  railTrap : List Word
  broken : Bool
  copyNo : Nat
  port : Port
  blockWords : List Nat
  arrived : BitVec 16
  ended : Bool
  copies : List Copy
  noStop : Bool
  dbgMet : Bool
  toks : List Tok
  tileOps : List TileOp
  deriving DecidableEq, Repr

/-- A member of a gang (R334); `done` when it has ended, `frame` and `extra` while it is saved. -/
structure Member where
  role : Nat
  sl : Nat
  done : Bool
  frame : Option Word
  extra : Option Extra
  deriving DecidableEq, Repr

/-- A gang: placement, jig, barrier set and the collisions of its present exchange phase (R334-R350); `freed` once its restore has given
its frame slots back (R327), and `waits` the barriers whose phases waited for the rails at a save, with the ticks of their last arrivals
(R340). -/
structure Gang where
  id : Nat
  part : Fin 24
  task : Nat
  index : Nat
  size : Nat
  cl : Nat
  strips : List Nat
  members : List Member
  start : Option Nat
  standby : Bool
  restoring : Bool
  saving : Bool
  flushed : Bool
  grace : Option Nat
  bars : Vector Barrier 16
  hits : List (Bool × Nat × Nat)
  freed : Bool := false
  waits : List (Nat × Nat) := []
  deriving DecidableEq, Repr

/-! ### Partition and scheduler -/

/-- Task states (R322). -/
inductive TaskSt where
  | waiting | ready | placing | running | saved | done
  deriving DecidableEq, Repr

/-- What the root keeps of an image (R104, R106). -/
structure Image where
  base : Word
  jdef : Bool
  entry : Nat
  textSize : Nat
  textSpa : Nat
  textOff : Word
  regions : List Region
  strips : List Nat
  deriving DecidableEq, Repr

/-- A task (R314, R322): `span` gangs of `gang` roles; `stamp` bounds the loads of its contexts (R318). -/
structure Task where
  serial : Nat
  gva : Word
  launch : Option Nat
  image : Word
  dsig : Option (Fin 256)
  nbt : Option Nat
  prio : Nat
  gang : Nat
  span : Nat
  aff : Option Nat
  deps : List (Nat × Nat)
  args : List Word
  entered : Nat
  readyAt : Nat
  st : TaskSt
  kept : Option Image
  gangs : List Nat
  aborted : Bool
  from_ : Option CoreKey
  stamp : Nat
  deriving DecidableEq, Repr

/-- A submitted launch (R109, R319). -/
structure Launch where
  id : Nat
  gva : Word
  ntask : Nat
  tasks : Word
  donecnt : Word
  abortcnt : Word
  irq : Option Nat
  next : Nat
  left : Nat
  aborted : Nat
  quiet : Bool
  deriving DecidableEq, Repr

/-- A fault record before it is written (R269). -/
structure FaultRec where
  cause : Nat
  slot : Nat
  ctxid : Word
  time : Nat
  pos : Word
  einfo : Word
  gva : Word
  detail0 : Word
  detail1 : Word
  stopped : Bool
  deriving DecidableEq, Repr

/-- Ownership masks (R425). -/
structure Own where
  ch : BitVec 16
  slc : BitVec 24
  cl : BitVec 24
  deriving DecidableEq, Repr

/-- A TENQ on its way (R331). -/
structure Tenq where
  id : Nat
  key : CoreKey
  part : Fin 24
  gva : Word
  det : Bool
  launch : Option Nat
  arrived : Option Nat
  result : Option Word
  deriving DecidableEq, Repr

/-- A partition: the registers of its two pages and what the root keeps for it; `fqretry` and `smpretry` are the ticks at which a ring
writer that waits for a STATE 2 entry walks again, and `smpwait` the sample records that wait (R266); `target` are the masks that an APPLY
or a DESTROY moves to, `plyTok` the tokens of its ply meters (R428), `coreTok`, by cluster, those of a core's meter that has given none,
`admitted` the slot that each pull meter admitted last (R392), `flr` a Function Level Reset whose launches have not yet completed. -/
structure Part where
  shadow : Own
  active : Own
  target : Own
  flr : Bool
  state : Nat
  busy : Bool
  err : Bool
  destroying : Bool
  schctl : Word
  frbase : Word
  frcnt : Word
  frames : List Word
  clalloc : Word
  clpend : Option (Word × Nat)
  pullctl : Word
  reqctl : Word
  partstid : Word
  meshctl : Word
  maproot : Word
  gracecfg : Word
  peerwin : BitVec 3584
  doorbells : List (Word × Nat)
  lnchErr : Bool
  launches : List Launch
  sig : List (Nat × BitVec 32)
  mapinva : Word
  mapAt : Word
  mapBusy : Bool
  mapPages : List (Nat × Nat)
  mapErr : Bool
  mapCmd : Nat
  fqbase : Word
  fqlog : Nat
  fqhead : Nat
  fqtail : Nat
  fqlost : Word
  fqlast : Option FaultRec
  fqmerged : Nat
  fqwait : List FaultRec
  fqblocked : Bool
  fqretry : Nat := 0
  bwin : Word
  irqcfg : Word
  blkst : Word
  cntbase : Word
  smpbase : Word
  smplog : Nat
  smphead : Nat
  smptail : Nat
  smpctl : Word
  smplost : Nat
  smpwait : List (Nat × List Nat) := []
  smpretry : Nat := 0
  tasks : List Task
  serial : Nat
  hold : List (Notice × PortName × PortName)
  meters : List (Nat × Nat)
  admitted : List (Nat × Nat)
  plyTok : List (Nat × Nat) := []
  coreTok : List (Nat × Nat) := []
  reqbuckets : List (Nat × Nat)
  gen : BitVec 32
  measure : BitVec 512
  topTask : Nat
  topSince : Nat
  reserving : List Nat
  throttled : Bool
  held : List (Nat × Nat)
  heldAfter : Nat
  deriving DecidableEq, Repr

/-! ### Link and host -/

/-- A combining group at this device's router (R418); a closed one waits for a STATE 2 entry. -/
structure Group where
  id : Nat
  stid : BitVec 16
  gva : Word
  dbl : Bool
  openedAt : Nat
  closed : Bool
  members : List (Combined × Word)
  deriving DecidableEq, Repr

/-- A chunk of a pull (R390-R396); `held` while it is a replay entry, `asks` while a request that is made again waits to leave (R409, R411).
-/
structure Chunk where
  id : Nat
  key : CoreKey
  ctx : Nat
  pull : Nat
  idx : Nat
  n : Nat
  off : Nat
  size : Nat
  first : Bool
  src : PortName
  block : BitVec 32
  hops : Nat
  outcome : Nat
  data : List Byte
  held : Bool
  asks : Bool := false
  deriving DecidableEq, Repr

/-- A host posted write not yet applied (R240); `pend` is one that waits at the bridge for a STATE 2 entry, with its
offset, its bytes and the tick of its next translation. -/
structure HostWrite where
  fn : Nat
  num : Nat
  cells : List Host.Cell
  pend : Option (Nat × List Byte × Nat)
  deriving DecidableEq, Repr

/-- What leaves the device. A remote request says whether it may be combined, a reply gives the tag of the line after its step;
`forward` is a beat of other devices that this router passes on, `via` the intermediate that a group has still to reach (R223, R410, R418,
R419). -/
inductive Out where
  | msix (fn vec : Nat)
  | readData (fn : Nat) (data : List Byte)
  | readAbort (fn : Nat)
  | report (bytes : List Byte)
  | remote (pos : Nat) (stid : BitVec 16) (req : Nat) (gva : Word) (comb : Bool)
  | remoteReply (tag : Nat) (reason : Nat) (val : Word) (line : BitVec 32)
  | notice (n : Notice) (dev : Nat) (task gang role : Nat) (stid : BitVec 16)
  | release (dev : Nat) (task gang role : Nat) (block : BitVec 32)
  | abandon (dev : Nat) (task gang role : Nat) (block : BitVec 32) (pull : Nat)
  | chunkAsk (dev : Nat) (block : BitVec 32) (off size : Nat)
  | chunkData (tag : Nat) (outcome : Nat) (data : List Byte)
  | combined (port : Nat) (via : Option Nat) (gva : Word) (stid : BitVec 16) (dbl : Bool) (sum : Word) (members : Nat)
  | forward (port : Nat) (beat : Instr)
  deriving DecidableEq, Repr

/-- A message that waits to leave: toward a position whose routing entry is to be rewritten, with the intermediate that it takes (R411), or
from a ply of this device to another, until the plan gives its partition a slot of that ply (R361). -/
inductive Held where
  | away (pos : Nat) (one : Bool) (o : Out)
  | here (ply : Fin 12) (part : Fin 24) (msg : Instr)
  deriving DecidableEq, Repr

/-- Link registers (R408-R410), the groups of the router (R418), and the messages that wait. -/
structure Link where
  standcfg : Word
  newMaster : Option Nat
  ports : Vector Word 64
  routes : List (Nat × Word)
  routePend : List (Nat × Word)
  groups : List Group
  held : List Held
  deriving DecidableEq, Repr

/-! ### The device -/

/-- The state of the device. `dawn` are the events of the tick that precede the cores' turn. `rejected`, `failed` and `isReady` are what
Ewester's status registers report (R23): that the firmware was not admitted, the cores that failed their self-test, READY. -/
structure State where
  time : Nat
  mem : Memory
  wrote : List Host.Cell
  lpddr : List Host.Cell
  lines : List (Nat × Line)
  stamp : Nat
  older : List Older
  key : CoreKey
  core : Core
  others : List (CoreKey × Core)
  plies : Vector Ply 12
  clr : Clearing
  gangs : List Gang
  rails : List RailBeat
  railHold : List (Nat × Nat)
  railWait : List (Nat × Nat)
  parts : Vector Part 24
  round : Nat
  tenqs : List Tenq
  reqs : List Req
  chunks : List Chunk
  link : Link
  hostW : List HostWrite
  hostN : List (Nat × Nat)
  hostMark : List (Nat × Nat)
  bringUp : Nat
  isReady : Bool
  rejected : Bool
  failed : List CoreKey
  actf : Vector Word 13
  fwMeasure : BitVec 512
  out : List Out
  agenda : List Instr
  dawn : List Instr
  turn : List CoreKey
  cal : List (Nat × Instr)
  draws : Nat
  party : Nat
  seeds : List (Nat × Nat)
  deriving DecidableEq, Repr

/-! ### Power-on -/

/-- Context system registers at a fresh start (R97, R387, R390). -/
def SysRegs.fresh : SysRegs :=
  { cstat := 0, fctl := 0, srs := 0x9E3779B9, tvec := 0, tmask := 0, epos := 0, ecause := 0, einfo := 0, edone := 0,
    estat := 0, pkey := #v[1, 2, 5, 0], chunk := 1024, pace := 0 }

/-- A context slot that is EMPTY. -/
def Ctx.blank : Ctx :=
  { st := .empty, part := 0, task := 0, span := false, gang := 0, role := 0, gid := 0, pos := 0, loops := [],
    regs := .zero, sys := .fresh, vcyc := 0, frzt := 0, phase := .ready, bun := none, flights := [], snap := none,
    wins := [], stage := none, save := none, asyncQ := [], hazard := none, epoch := none, broken := false,
    railTrap := [], arrived := 0, replay := [], noStop := false, fresh := 0, freshAll := 0, seen := [], copyNo := 0,
    ended := false }

/-- Descriptor with MODE 0. -/
def Region.unused : Region := ⟨0, 0, 0, false, 0, 0⟩

/-- Handle with its Reset values (R276). -/
def Handle.reset : Handle := ⟨0, 0, false, false, .free⟩

/-- Term engine at a fresh start: GPST holds TAG 0x7F twice (R191). -/
def Tile.reset : Tile :=
  { greg := (Vector.replicate 16 (0 : Word)).set 5 0x7F7F, m := Vector.replicate 8 0, ps := Vector.replicate 2 0,
    cnt := Vector.replicate 32 0, ops := [], fPrev := 0 }

/-- Port engine at a fresh start. -/
def Port.reset : Port :=
  { inb := [], order := 0, blocks := [], ops := [], pulls := [], bucket := 16384, outstanding := 0,
    lastGrant := 0, idleFrom := 0, freeAt := 0, keys := [1, 2, 5, 0] }

/-- A core after power-on. -/
def Core.reset : Core :=
  { act := .blank, sby := .blank, spm := [], spBad := [], regions := Vector.replicate 64 .unused, gran := [], tlb := [],
    walks := [], tags := [], fetchBuf := [], tile := .reset, handles := Vector.replicate 256 .reset, copies := [],
    fences := [], feeds := Vector.replicate 8 none, port := .reset, toks := [], sendBuf := [],
    ev := Vector.replicate 25 0, evSeen := Vector.replicate 25 0, evTick := Vector.replicate 25 0, hist := [],
    regsx := { dbgctl := 0, dbgsel := 0, cpyErr := false, ctxErr := Vector.replicate 2 false, ctxBusy := Vector.replicate 2 false,
               ctxCause := Vector.replicate 2 0, ctxFrm := Vector.replicate 2 0 } }

/-- A ply after power-on: P3, mirror lost (R18, R23). -/
def Ply.reset : Ply :=
  { st := .p3, target := .p3, auto := false, goal := .p3, busy := false, err := false, idle := 0, mirror := [], stale := true,
    buffer := [], bad := false }

/-- The Clearing at power-on. -/
def Clearing.reset : Clearing :=
  { keeper := [], queue := [], beats := [], resend := [], shadow := [], active := [], next := [], busy := false,
    err := false, commitAt := 0, resyncReq := [], resyncRun := [], resyncF := 0 }

/-- A partition's registers at their Reset values. -/
def Part.reset : Part :=
  { shadow := ⟨0, 0, 0⟩, active := ⟨0, 0, 0⟩, target := ⟨0, 0, 0⟩, flr := false, state := 0, busy := false, err := false, destroying := false,
    schctl := 0x10140100, frbase := 0, frcnt := 0, frames := [], clalloc := 0, clpend := none, pullctl := 0,
    reqctl := 0, partstid := 0, meshctl := 0, maproot := 0, gracecfg := 0x100000, peerwin := 0, doorbells := [],
    lnchErr := false, launches := [], sig := [], mapinva := 0, mapAt := 0, mapBusy := false,
    mapPages := [], mapErr := false, mapCmd := 0,
    fqbase := 0, fqlog := 6, fqhead := 0, fqtail := 0, fqlost := 0, fqlast := none, fqmerged := 0, fqwait := [], fqblocked := false,
    bwin := 0, irqcfg := 0, blkst := 0, cntbase := 0, smpbase := 0, smplog := 9, smphead := 0, smptail := 0,
    smpctl := 0x100000, smplost := 0, tasks := [], serial := 1, hold := [], meters := [], admitted := [], reqbuckets := [], gen := 0,
    measure := 0, topTask := 0, topSince := 0, reserving := [], throttled := false, held := [], heldAfter := 0 }

/-- Link registers after power-on: MASTER, POS and NBR are 4,095 (R408, R409). -/
def Link.reset : Link :=
  { standcfg := 0x0000FFF000000FFF, newMaster := none, ports := Vector.replicate 64 0x0FFF0000, routes := [],
    routePend := [], groups := [], held := [] }

/-- The device at power-on: every ply in P3, nothing placed, bring-up step 1 due (R23). -/
def State.reset : State :=
  { time := 0, mem := [], wrote := [], lpddr := [], lines := [], stamp := 0, older := [], key := ⟨0, 0⟩, core := .reset,
    others := [], plies := Vector.replicate 12 .reset, clr := .reset, gangs := [], rails := [], railHold := [],
    railWait := [], parts := Vector.replicate 24 .reset, round := 0, tenqs := [], reqs := [], chunks := [],
    link := .reset, hostW := [], hostN := [], hostMark := [], bringUp := 1, isReady := false, rejected := false, failed := [],
    actf := Vector.replicate 13 0xC0, fwMeasure := 0, out := [], agenda := [], dawn := [], turn := [], cal := [(1, .bringUpStep)],
    draws := 0, party := 24, seeds := [] }

end Sys2Proof.Machine
end

