-- ==== Sys2Proof/Machine/SysWrite.lean ====
section
/-! DEFINITION. The context system registers as SWR writes them (R97, R99, R144, R146, R387, R390,
R391). -/

namespace Sys2Proof.Machine

/-- Bits of TMASK that a write may set (R97). -/
def tmaskBits : Word := 0x1001F70

/-- Bits `m` of `x`, the others of `old`. -/
def mergeBits (old x m : Word) : Word := (old &&& ~~~m) ||| (x &&& m)

/-- A PKEY write (R387). -/
def pkeyWrite (old x : Word) : Word := if fld x.toNat 0 3 = 7 then mergeBits (old &&& 0xF) x 8 else x &&& 0xF

/-- A CHUNK write, field by field (R390). -/
def chunkWrite (old x : Word) : Word :=
  let size := fld x.toNat 0 13
  let log := fld x.toNat 32 22
  let a := if 256 ≤ size ∧ size ≤ 4096 ∧ size % 256 = 0 then mergeBits old x 0x1FFF else old
  let b := if log % 64 = 0 ∧ log + 16384 ≤ 0x300000 then mergeBits a x 0x3FFFFF00000000 else a
  if fld x.toNat 62 2 = 3 then b
  else if fld x.toNat 62 2 = fld old.toNat 62 2 then b
  else mergeBits b x 0xC000000000000000 &&& ~~~0x1FFC000#64

/-- A PACE write under the cap of the partition (R391). -/
def paceWrite (cap : Nat) (x : Word) : Word :=
  if cap < fld x.toNat 0 16 then BitVec.ofNat 64 cap else x &&& 0xFFFF

/-- An FCTL write: sticky flags W1C, RM unless reserved, DAZ and FTZ (R146). -/
def fctlWrite (old x : Word) : Word :=
  let flags := (old &&& 0x1F00) &&& ~~~x
  let rm := if 5 ≤ fld x.toNat 2 3 then old &&& 0x1C else x &&& 0x1C
  flags ||| rm ||| (x &&& 3)

/-- An SWR of register `n`, field by field under the access codes (R97, R99). -/
def SysRegs.write (r : SysRegs) (cap n : Nat) (x : Word) : SysRegs :=
  if n = 0x3 then { r with cstat := r.cstat &&& ~~~(x &&& 0x81) }
  else if n = 0x8 then { r with fctl := fctlWrite r.fctl x }
  else if n = 0x9 then { r with srs := x &&& 0x1FFFFFFFF }
  else if n = 0x10 then { r with tvec := x &&& ~~~3#64 }
  else if n = 0x11 then { r with tmask := x &&& tmaskBits }
  else if n = 0x12 then { r with epos := x }
  else if n = 0x13 then { r with ecause := x &&& 0xFFF }
  else if n = 0x14 then { r with einfo := x }
  else if n = 0x15 then { r with edone := r.edone ||| (x &&& 0x7F) }
  else if n = 0x20 then { r with pkey := r.pkey.set 0 (pkeyWrite r.pkey[0] x) }
  else if n = 0x21 then { r with pkey := r.pkey.set 1 (pkeyWrite r.pkey[1] x) }
  else if n = 0x22 then { r with pkey := r.pkey.set 2 (pkeyWrite r.pkey[2] x) }
  else if n = 0x23 then { r with pkey := r.pkey.set 3 (pkeyWrite r.pkey[3] x) }
  else if n = 0x24 then { r with chunk := chunkWrite r.chunk x }
  else if n = 0x25 then { r with pace := paceWrite cap x }
  else r

/-- CAP of a partition (R392). -/
def Part.cap (p : Part) : Nat := fld p.pullctl.toNat 0 16

/-- The write of an SWR takes effect at the virtual cycle after its issue (R99). -/
def Ctx.applySwr (cap : Nat) (c : Ctx) : Ctx :=
  match c.bun with
  | none => c
  | some b =>
    match b.swr with
    | none => c
    | some (n, x) => { c with sys := c.sys.write cap n x, bun := some { b with swr := none } }

/-- The write of an SWR takes effect; a change of CHUNK.MODE begins the counting of deltas anew (R390, R394). -/
def Core.takeSwr (now cap : Nat) (c : Core) : Core :=
  let a := c.act.applySwr cap
  { c with act := a,
           port := if fld a.sys.chunk.toNat 62 2 = fld c.act.sys.chunk.toNat 62 2 then c.port
                   else { c.port with lastGrant := now } }

end Sys2Proof.Machine
end

