-- ==== Sys2Proof/Machine/Ops.lean ====
section
/-! DEFINITION. The named operations over registers, memory, calendar and traps that every meaning uses. -/

/-- Puts `x` in front of the first element that does not stand before it. -/
def List.insertBy {α : Type} (le : α → α → Bool) (x : α) : List α → List α
  | [] => [x]
  | y :: ys => if le x y then x :: y :: ys else y :: List.insertBy le x ys

/-- Sorts by `le`; equal elements keep their order. -/
def List.sortBy {α : Type} (le : α → α → Bool) : List α → List α
  | [] => []
  | x :: xs => List.insertBy le x (List.sortBy le xs)

namespace Sys2Proof.Machine

/-- The outcome of one operation of this machine. -/
abbrev Res := Host.Outcome State Fault Refusal

/-! ### The core in view, the calendar, free values -/

/-- The active context of the core in view. -/
def State.ctx (s : State) : Ctx := s.core.act

def State.modCore (s : State) (f : Core → Core) : State := { s with core := f s.core }

def State.modCtx (s : State) (f : Ctx → Ctx) : State := { s with core := { s.core with act := f s.core.act } }

/-- The state of any core; a core that nothing has touched stands as after power-on. -/
def State.coreAt (s : State) (k : CoreKey) : Core :=
  if k = s.key then s.core else
    match s.others.find? (fun e => e.1 == k) with
    | some e => e.2
    | none => .reset

/-- Brings core `k` into view. -/
def State.focus (s : State) (k : CoreKey) : State :=
  if k = s.key then s
  else { s with core := s.coreAt k, key := k,
                others := (s.key, s.core) :: s.others.filter (fun e => e.1 != k && e.1 != s.key) }

/-- Changes core `k` without moving the view. -/
def State.modAt (s : State) (k : CoreKey) (f : Core → Core) : State :=
  if k = s.key then { s with core := f s.core }
  else { s with others := (k, f (s.coreAt k)) :: s.others.filter (fun e => e.1 != k) }

/-- Where the free values of the acting party start: each partition, and the device (party 24), has a count of its own, so that what a
partition meets does not depend on the others (R429, entry 93). -/
def State.seed (s : State) : Nat := s.draws * 32 + s.party

/-- `p` is the party that acts. -/
def State.asParty (s : State) (p : Nat) : State :=
  if s.party = p then s else { s with draws := lookupD s.seeds p 0, party := p, seeds := insertK s.seeds s.party s.draws }

/-- The number that party `p` gives next. -/
def State.idOf (s : State) (p : Nat) : Nat := (if s.party = p then s.draws else lookupD s.seeds p 0) * 32 + p

/-- Every core the state holds. -/
def State.cores (s : State) : List (CoreKey × Core) := (s.key, s.core) :: s.others

/-- Enters an event in the calendar; one of the present tick stands behind those already due. -/
def State.at (s : State) (t : Nat) (e : Instr) : State :=
  if t ≤ s.time then { s with agenda := s.agenda ++ [e] } else { s with cal := s.cal ++ [(t, e)] }

/-- Enters an event after a free number of ticks, at least `least` (entry 5). -/
def State.later (s : State) (least : Nat) (e : Instr) : State :=
  { s with cal := s.cal ++ [(s.time + least + Config.lat s.seed, e)], draws := s.draws + 1 }

/-- Enters an event of this tick, behind those already due. -/
def State.soon (s : State) (e : Instr) : State := { s with agenda := s.agenda ++ [e] }

/-- A free choice below `n` (entries 6 and 7). -/
def State.choose (s : State) (n : Nat) : Nat := Config.pick s.seed % n

def State.drawn (s : State) : State := { s with draws := s.draws + 1 }

/-- The partition's record. -/
def State.part (s : State) (p : Fin 24) : Part := s.parts[p]

def State.modPart (s : State) (p : Fin 24) (f : Part → Part) : State :=
  { s with parts := s.parts.set p (f s.parts[p]) }

/-- TIME as programs read it (R13). -/
def State.timeW (s : State) : Word := BitVec.ofNat 64 s.time

/-- Ply of a cluster (R10). -/
def plyOf (cl : Nat) : Fin 12 := Fin.ofNat 12 (cl / 2)

/-- The cores and engines of the core's ply run: it is in P0 (R16). -/
def State.clocked (s : State) (k : CoreKey) : Bool := s.plies[plyOf k.cl.val].st == .p0

/-- Order of the cores' turns within a tick (entry 1). -/
def CoreKey.le (a b : CoreKey) : Bool := decide (a.cl.val * 100 + a.sl.val ≤ b.cl.val * 100 + b.sl.val)

/-- A core whose context starts on this tick has its turn in it (R78). -/
def State.joinTurn (s : State) (k : CoreKey) : State :=
  if s.clocked k && !s.turn.contains k then { s with turn := List.insertBy CoreKey.le k s.turn } else s

/-- Adds to event counter `e` (R438). -/
def Core.count (c : Core) (e : Fin 25) (n : Nat) : Core :=
  { c with ev := c.ev.set e (c.ev[e] + BitVec.ofNat 32 n) }

def State.count (s : State) (e : Fin 25) (n : Nat) : State := s.modCore (·.count e n)

/-- The state an event leaves: the bytes the step wrote reach device memory together. -/
def settle (s t : State) : State := { t with mem := s.mem.writes t.wrote.reverse, wrote := [] }

/-- The state a slot instruction leaves: only the core in view and what it sends change. -/
def keep (s t : State) : State :=
  { s with core := t.core, agenda := t.agenda, turn := t.turn, cal := t.cal, draws := t.draws, reqs := t.reqs,
           clr := { s.clr with queue := t.clr.queue, resyncReq := t.clr.resyncReq }, plies := t.plies, rails := t.rails,
           tenqs := t.tenqs, parts := t.parts }

/-! ### Registers -/

/-- s registers: s0 reads as zero (R11). -/
def RegFile.rs (r : RegFile) (i : Fin 64) : Word := if i = 0 then 0 else r.s[i]

/-- Predicates: p0 reads as true (R11). -/
def RegFile.rp (r : RegFile) (i : Fin 8) : Bool := if i = 0 then true else r.p.getLsbD i

/-- Mask registers: k0 reads as all ones (R11). -/
def RegFile.rk (r : RegFile) (i : Fin 8) : Word := if i = 0 then BitVec.allOnes 64 else r.k[i]

/-- A write to s0 is discarded (R42). -/
def RegFile.ws (r : RegFile) (i : Fin 64) (x : Word) : RegFile := if i = 0 then r else { r with s := r.s.set i x }

/-- A write to p0 is discarded (R42). -/
def RegFile.wp (r : RegFile) (i : Fin 8) (x : Bool) : RegFile :=
  if i = 0 then r
  else { r with p := if x then r.p ||| (1#8 <<< i.val) else r.p &&& ~~~(1#8 <<< i.val) }

/-- A write to k0 is discarded (R171). -/
def RegFile.wk (r : RegFile) (i : Fin 8) (x : Word) : RegFile := if i = 0 then r else { r with k := r.k.set i x }

def RegFile.wv (r : RegFile) (i : Fin 32) (x : Vec) : RegFile := { r with v := r.v.set i x }

/-- A landed result shifts the latches of its slot (R44); slot 6 has none. -/
def RegFile.shiftLatch (r : RegFile) (slot : Nat) (x : Vec) : RegFile :=
  if h : slot < 6 then
    { r with lat := (r.lat.set (2 * slot + 1) (r.lat[2 * slot]'(by omega)) (by omega)).set (2 * slot) x (by omega) }
  else r

/-- The registers that slots read: the operand snapshot after a stop, the live file otherwise (R90, R91). -/
def Ctx.view (c : Ctx) : RegFile := c.snap.getD c.regs

/-- CTXID (R97). -/
def Ctx.id (c : Ctx) (k : CoreKey) : Word :=
  BitVec.ofNat 64 ((c.task % 2 ^ 32) * 2 ^ 32 + c.part.val * 2 ^ 24 + b2n c.span * 2 ^ 21 + (c.gang % 32) * 2 ^ 16 +
    k.cl.val * 2 ^ 8 + c.role % 128)

/-- ESTAT.IN (R97). -/
def Ctx.inHandler (c : Ctx) : Bool := c.sys.estat.getLsbD 0

/-- ESTAT.LDEP (R97). -/
def Ctx.ldep (c : Ctx) : Nat := fld c.sys.estat.toNat 1 3

/-- Loop entries visible to the running code (R133); the list holds the innermost first. -/
def Ctx.visible (c : Ctx) : Nat := if c.inHandler then c.loops.length - c.ldep else c.loops.length

/-! ### Committing, waiting, landing -/

/-- Slot instructions of a bundle, which the step that issues the bundle runs one after another. -/
def isSlot (i : Instr) : Bool := i.slot?.isSome

/-- Drops the slots of the present bundle that have not run. -/
def State.dropSlots (s : State) : State := { s with agenda := s.agenda.dropWhile isSlot }

/-- The slot that runs next reads its own snapshot where a restored frame gave one (R91). -/
def Ctx.presents (c : Ctx) : Ctx :=
  match c.bun with
  | none => c
  | some b =>
    match b.snaps.find? fun x => (b.slots.head?.bind Instr.slot?).map Fin.val == some x.slot with
    | some x => { c with snap := some x.regs,
                         wins := x.wins ++ c.wins.filter fun w => !(x.wins.any fun v => v.1 == w.1) }
    | none => c

/-- Slot `sl` commits (R90). When the last present slot has committed, the bundle enters its EMPTY cycles; if a
freeze held it past its issue tick, the sequencer goes on in this tick (R74). -/
def commit (sl : Nat) (s : State) : State :=
  match s.core.act.bun with
  | none => s
  | some b =>
    let done := b.done ||| (1#7 <<< sl)
    let b' := { b with done := done, slots := b.slots.drop 1 }
    let c := s.core.act
    if done = b.mask then
      { s with core := ({ s.core with act := { c with bun := some b', stage := none, phase := .gap, snap := none,
                                                      wins := [], vcyc := b.cyc + 1 } }).count 2 1,
               turn := if s.time = b.tick then s.turn else s.key :: s.turn }
    else { s with core := ({ s.core with act := ({ c with bun := some b', stage := none } : Ctx).presents }).count 2 1 }

/-- Slot does not go on in this tick: the core is frozen (R73, R74). The tick of the issue itself is no frozen
tick. -/
def stall (s : State) : State :=
  let c := s.core.act
  let late := match c.bun with
    | some b => decide (b.tick < s.time)
    | none => true
  { s with core := if late then ({ s.core with act := { c with frzt := c.frzt + 1 } }).count 3 1 else s.core }.dropSlots

/-- A frozen tick in which no bundle is open (R73). -/
def frozenTick (s : State) : State :=
  { s with core := ({ s.core with act := { s.core.act with frzt := s.core.act.frzt + 1 } }).count 3 1 }

/-- Issue cycle of the bundle in view. -/
def Ctx.cyc (c : Ctx) : Nat :=
  match c.bun with
  | some b => b.cyc
  | none => c.vcyc

/-- Adds a result in flight. -/
def fly (f : Flight) (s : State) : State := s.modCtx fun c => { c with flights := c.flights ++ [f] }

/-- Slot `sl` commits with a result of latency `lat` (R43). -/
def land (sl lat : Nat) (latch : Option Vec) (ws : List RegWrite) (flags : Word) (s : State) : State :=
  commit sl (fly { due := s.core.act.cyc + lat, cyc := s.core.act.cyc, slot := sl, latch := latch, writes := ws,
                   flags := flags, need := none, refresh := none } s)

/-- A scalar as a latch holds it (R44). -/
def latchOf (x : Word) : Vec := x.setWidth 2048

/-- A 64-bit result to a scalar register, written unless WB = 0 (R42). -/
def landS (sl lat : Nat) (wb : Bool) (d : Fin 64) (x : Word) (s : State) : State :=
  land sl lat (some (latchOf x)) (if wb then [.s d x] else []) 0 s

/-- Applies one register write of a landing result. -/
def RegFile.apply (r : RegFile) : RegWrite → RegFile
  | .s i x => r.ws i x
  | .p i x => r.wp i x
  | .k i x => r.wk i x
  | .v i x => r.wv i x
  | .feed _ _ _ => r
  | .m _ _ _ _ => r

/-- Whether two writes name one register (R46). Discarded writes of s0, p0 and k0 do not clash, and no more do two VMWRs of one m element, of
which the one issued later wins (R185; entry 96, DESIGN CHOICE). -/
def RegWrite.clash : RegWrite → RegWrite → Bool
  | .s i _, .s j _ => i == j && i != 0
  | .p i _, .p j _ => i == j && i != 0
  | .k i _, .k j _ => i == j && i != 0
  | .v i _, .v j _ => i == j
  | _, _ => false

/-! ### Traps -/

/-- Causes that TMASK may deliver locally (R89). -/
def localCause (code : Nat) : Bool :=
  code == 4 || code == 5 || code == 6 || (8 ≤ code && code ≤ 0xC) || code == 0x18

/-- Puts a fault record in line for the partition's ring (R270). -/
def pushRecord (p : Fin 24) (r : FaultRec) (s : State) : State :=
  s.modPart p fun q => { q with fqwait := q.fqwait ++ [r] }

/-- The record of a trap delivered to the supervisor (R95, R269). -/
def trapRecord (s : State) (t : Trap) : FaultRec :=
  let c := s.core.act
  { cause := t.code, slot := t.slot, ctxid := c.id s.key, time := s.time, pos := BitVec.ofNat 64 c.pos,
    einfo := t.einfo, gva := t.gva, detail0 := t.detail0, detail1 := 0, stopped := true }

/-- Feed registers named by a vector operand. -/
def feedOf : VOp → List (Fin 8)
  | .f i => [i]
  | _ => []

/-- Inbound feeds that an instruction reads: each f once (R164, R345). -/
def feedSources : Instr → List (Fin 8)
  | .vadd r | .vsub r | .vmul r | .vfma r | .vmax r | .vmin r | .vmaxu r | .vminu r | .vshl r | .vshr r | .vsar r
  | .vperm r => (feedOf r.a ++ feedOf r.b).eraseDups
  | .vabs r | .vneg r | .vexp2 r | .vrcp r | .vrsq r | .vidx r => feedOf r.a
  | .vcmp r | .vcmpu r => (feedOf r.a ++ feedOf r.b).eraseDups
  | .vsel r => (feedOf r.a ++ feedOf r.b).eraseDups
  | .vand r | .vor r | .vxor r => (feedOf r.a ++ feedOf r.b).eraseDups
  | .vqnt r | .vscl r => feedOf r.a
  | .vred r => feedOf r.a
  | .vmwr r => feedOf r.v
  | .xsnd r => feedOf r.v
  | _ => []

/-- Elements of a window of a pattern's format width (R299). -/
def fmtWidth (c : Nat) : Nat :=
  match decCvt c with
  | some t => t.width
  | none => 32

/-- Elements N of a pass and windows W of a pass (R299). -/
def Pattern.count (p : Pattern) : Nat := p.e.foldl (· * ·) 1
def Pattern.windows (p : Pattern) : Nat :=
  (p.count + 2048 / fmtWidth p.fmt - 1) / (2048 / fmtWidth p.fmt)

/-- Position after one more window (R300). -/
def Pattern.advance (p : Pattern) (win pass : Nat) : Nat × Nat :=
  if win + 1 < p.windows then (win + 1, pass) else (0, pass + 1)

/-- Takes the next inbound window of f, if one is there. -/
def Core.takeWindow (c : Core) (f : Fin 8) : Core :=
  match c.feeds[f] with
  | none => c
  | some fd =>
    match fd.buf with
    | [] => c
    | w :: rest =>
      if fd.pat.out || c.act.wins.any (fun x => x.1 == f.val) then c
      else
        let (wi, pa) := fd.pat.advance fd.win fd.pass
        { c with feeds := c.feeds.set f (some { fd with buf := rest, win := wi, pass := pa }),
                 act := { c.act with wins := (f.val, w) :: c.act.wins } }

/-- The inbound feeds that an uncommitted slot will read: none for an XSND whose guard is false, which performs nothing (R37, R164). -/
def Core.feedsRead (c : Core) (i : Instr) : List (Fin 8) :=
  match i with
  | .xsnd r => if c.act.view.rp r.g.idx ^^ r.g.neg then feedSources i else []
  | _ => feedSources i

/-- A stop keeps the windows of the uncommitted slots in the operand snapshot (R164). -/
def Core.snapshot (c : Core) : Core :=
  match c.act.bun with
  | none => c
  | some b =>
    let c1 := (b.slots.flatMap c.feedsRead).foldl Core.takeWindow c
    { c1 with act := { c1.act with snap := some c.act.view } }

/-- Supervisor delivery (R95): the context is FROZEN with its whole stop state, and a record is written. -/
def superTrap (t : Trap) (s : State) : State :=
  let s1 := pushRecord s.core.act.part (trapRecord s t) s
  { s1 with core := { s1.core with act := { s1.core.act with st := .frozen },
                                   regsx := { s1.core.regsx with
                                     ctxCause := s1.core.regsx.ctxCause.set 0 (BitVec.ofNat 8 t.code) } } }
    |>.count 21 1 |>.dropSlots

/-- Sets the fields of ESTAT that delivery sets (R93). -/
def estatEnter (c : Ctx) : Word :=
  (c.sys.estat &&& 0x10) ||| BitVec.ofNat 64 (1 + c.loops.length % 8 * 2)

/-- Local delivery (R93): EPOS, EDONE, ECAUSE, EINFO and the trap save area are set, the latches cleared, and the
handler's first bundle issues at the cycle after the stopped bundle's. -/
def localTrap (t : Trap) (isAsync : Bool) (s : State) : State :=
  let c := s.core.act
  let dm : Nat × Nat := match c.bun with
    | some b => (b.done.toNat, b.mask.toNat)
    | none => (0, 0)
  let cyc := c.cyc
  let k1 := s.core.takeSwr s.time (s.part c.part).cap
  let c1 := k1.act
  let sys := { c1.sys with
    estat := estatEnter c, epos := BitVec.ofNat 64 c.pos, edone := BitVec.ofNat 64 (dm.1 + dm.2 * 256),
    ecause := BitVec.ofNat 64 (b2n isAsync * 2048 + t.slot * 256 + t.code), einfo := t.einfo }
  let save : TrapSave := { lat := c.regs.lat, flights := c.flights.map fun f => { f with due := f.due - cyc },
                           bun := c1.bun, snap := some c.view, wins := c.wins, stage := none }
  let c' := { c with sys := sys, save := some save, regs := { c.regs with lat := Vector.replicate 12 0 },
                     flights := [], snap := none, wins := [], stage := none, bun := none, phase := .ready,
                     vcyc := cyc + 1, pos := (c.sys.tvec.toNat / 4) * 4 }
  let again : Bool := match c.bun with
    | some b => decide (b.tick < s.time) && c.phase == Phase.issuing
    | none => false
  ({ s with core := { k1 with act := c' }, turn := if again then s.key :: s.turn else s.turn }).count 21 1
    |>.dropSlots

/-- A synchronous trap found at issue (R89, R90, R93, R95). The operands of the slots that have not committed stay
in the snapshot. -/
def takeTrap (t : Trap) (s : State) : State :=
  let c := s.core.act
  let s1 := s.modCore Core.snapshot
  if localCause t.code && c.sys.tmask.getLsbD t.code then
    if c.inHandler then
      superTrap { code := 0x1F, slot := t.slot, einfo := BitVec.ofNat 64 t.code, gva := t.gva, detail0 := 0 } s1
    else localTrap t false s1
  else superTrap t s1

/-- A trap of slot `sl` with a code and EINFO only. -/
def trapAt (sl code : Nat) (einfo : Word) (s : State) : State :=
  takeTrap { code := code, slot := sl, einfo := einfo, gva := 0, detail0 := 0 } s

/-- Stands where a reason of R266 stands, for an uncorrectable error that a fill meets (R27): data is never installed marked. -/
def errorReason : Nat := 0x13

/-- The trap of an access that does not translate, or whose granule cannot be filled (R27, R266, R269): a page fault, or the machine
check of the error that the fill met. -/
def accessTrap (sl : Nat) (einfo gva : Word) (reason level : Nat) : Trap :=
  if reason = errorReason then ⟨0x13, sl, einfo, gva, 0⟩
  else ⟨0x11, sl, einfo, gva, BitVec.ofNat 64 (reason * 256 + level)⟩

/-- A page fault of slot `sl` (R266, R269). -/
def pageFault (sl : Nat) (einfo gva : Word) (reason level : Nat) (s : State) : State :=
  takeTrap (accessTrap sl einfo gva reason level) s

/-- Names of replay entries (R92): a request, a granule's write-back, a tile operation, a window read. -/
def replayReq (id : Nat) : Nat := 4 * id
def replayGran (g : Nat) : Nat := 4 * g + 1
def replayTile (n : Nat) : Nat := 4 * n + 2
def replayFeed (f : Nat) : Nat := 4 * f + 3

/-- A replay entry has been performed. -/
def clearReplay (n : Nat) (s : State) : State := s.modCtx fun c => { c with replay := c.replay.filter (· != n) }

/-- A member that has stopped for a save takes no trap: what its engines meet becomes a record (R83). -/
def Ctx.stopped (c : Ctx) : Bool := c.st == .parked || c.st == .preempted || c.phase == .boundary

/-- The asynchronous trap at a bundle's issue or in an interruptible freeze (R94), with EINFO the block id. -/
def asyncTrap (s : State) : State :=
  match s.core.act.asyncQ with
  | [] => s
  | b :: rest =>
    let c := { s.core.act with asyncQ := rest, stage := none }
    let c := { c with sys := if rest = [] then { c.sys with estat := c.sys.estat &&& ~~~0x10#64 } else c.sys }
    let s1 := { s with core := ({ s.core with act := c }).snapshot }
    let t : Trap := { code := 0x18, slot := 5, einfo := b, gva := 0, detail0 := 0 }
    if c.sys.tmask.getLsbD 0x18 then localTrap t true s1 else superTrap t s1

/-- Return from a local handler (R101), at the completion of the ERET bundle: the interrupted bundle resumes at the
present cycle with DONE taken from EDONE. Where the handler has changed EPOS, the bundle there issues without the
slots that DONE names. -/
def returnFromTrap (now : Nat) (c : Ctx) : Ctx :=
  match c.save with
  | none => c
  | some v =>
    let done : BitVec 7 := BitVec.ofNat 7 (c.sys.edone.toNat % 128)
    let back : Ctx := { c with
      loops := c.loops.drop (c.loops.length - c.ldep), regs := { c.regs with lat := v.lat },
      flights := c.flights ++ v.flights.map (fun f => { f with due := f.due + c.vcyc }),
      sys := { c.sys with estat := c.sys.estat &&& 0x10 }, save := none, pos := c.sys.epos.toNat, stage := none,
      noStop := true }
    match v.bun with
    | none => { back with bun := none, phase := .ready, snap := none, wins := [] }
    | some b =>
      let b' := { b with cyc := c.vcyc, tick := now, done := done &&& b.mask,
                         slots := b.slots.filter fun i =>
                           match i.slot? with
                           | some n => !done.getLsbD n
                           | none => false }
      if b.addr = c.sys.epos.toNat then
        { back with bun := some b', phase := .issuing, snap := v.snap, wins := v.wins }
      else { back with bun := some { b' with done := done, slots := [] }, phase := .ready, snap := none, wins := [],
                       noStop := false }

/-! ### Device memory -/

/-- A byte of device memory as the slices hold it, with what this step has written. -/
def State.rd (s : State) (pa : Nat) : Byte :=
  match s.wrote.find? (fun c => c.1 == pa) with
  | some c => c.2
  | none => s.mem.read pa

/-- `n` bytes from a physical address. -/
def State.rdN (s : State) (pa n : Nat) : List Byte := (List.range n).map fun i => s.rd (pa + i)

/-- Writes bytes of device memory without a slice (a physical window, a scrub). -/
def State.poke (s : State) (pa : Nat) (bs : List Byte) : State :=
  { s with wrote := (cellsAt pa bs).reverse ++ s.wrote }

def Line.fresh : Line := ⟨0, none, false, 0, false⟩

def State.line (s : State) (pa : Nat) : Line := lookupD s.lines (pa / 128) .fresh

/-- Marks the bytes of a line written since its error; a line wholly written loses the mark (R28). -/
def Line.wrote (l : Line) (off n : Nat) : Line :=
  match l.bad with
  | none => l
  | some m =>
    let m' := m ||| (((BitVec.allOnes 128) >>> (128 - n)) <<< off)
    { l with bad := if m' = BitVec.allOnes 128 then none else some m' }

/-- Whether a physical address belongs to the partition (R493). -/
def Part.owns (p : Part) (pa : Nat) : Bool :=
  decide (pa < 768 * 2 ^ 30) && p.active.ch.getLsbD (pa / (48 * 2 ^ 30))

/-- The partition that owns a physical address. -/
def State.owner (s : State) (pa : Nat) : Option (Fin 24) := (List.finRange 24).find? fun p => (s.part p).owns pa

/-- A record of the root about a partition, whose CTXID and POS are 0; EINFO is that of the trap code, where the cause is
one (R89, R269). -/
def rootRecord (pn : Fin 24) (cause : Nat) (gva detail0 detail1 : Word) (s : State) : State :=
  pushRecord pn { cause := cause, slot := 0, ctxid := 0, time := s.time, pos := 0, einfo := if cause < 0x40 then gva else 0, gva := gva,
                  detail0 := detail0, detail1 := detail1, stopped := false } s

/-- The home of a line that a physical window reaches, which names no GVA: that of the line where a slice holds it, else free. -/
def State.homeAny (s : State) (pa : Nat) : Nat :=
  match s.lines.find? fun l => l.1 == pa / 128 with
  | some l => l.2.home
  | none => Config.pick s.seed % 192

/-- An uncorrectable error of a line is found without a consuming access (R28): the line is marked, none of its bytes counting as
written since, and the owner of the memory gets a record. An error found on a marked line does the same again (entry 85). -/
def markLine (line : Nat) (s : State) : State :=
  let s1 := { s with lines := insertK s.lines line { lookupD s.lines line .fresh with
      bad := some 0, again := false, home := s.homeAny (128 * line) } }
  match s.owner (128 * line) with
  | some p => rootRecord p 0x43 0 0 0 s1
  | none => s1

/-- Slice `i` of side `side` of ply `p` (R10). -/
def sliceNumber (p side i : Nat) : Nat := 16 * p + 8 * side + i

/-- Ply that holds a slice (R10). -/
def slicePly (n : Nat) : Nat := n / 16

/-- The slice set that a mask of slice groups names: group g is the eight slices of cluster g (R10, R425). -/
def slicesOf (slc : BitVec 24) : List Nat := (List.range 192).filter fun n => slc.getLsbD (n / 8)

/-- Home(a) (R7, R220): a fixed hash of the partition and of bits [51:7] of the GVA over the partition's slice set. -/
def State.home (s : State) (pn : Fin 24) (va : Nat) : Nat :=
  let set := slicesOf (s.parts[pn]).active.slc
  set.getD (Config.homeHash pn.val (va % 2 ^ 52 / 128) % set.length) 0

/-- A slice writes a line back and drops it: the next fill starts its tag at 0 (R223). An uncorrectable error that this finds marks the
line, which then stays, and is recorded (R28, entry 85); a marked line stays. -/
def State.evict (line : Nat) (s : State) : State :=
  let l := lookupD s.lines line .fresh
  if l.bad.isSome then s
  else if Config.upset s.seed then markLine line s.drawn
  else { s.drawn with lines := insertK s.lines line { l with tag := 0, again := true },
                      lpddr := s.lpddr.filter fun c => c.1 / 128 != line }

/-- The slices write back and drop every line that `p` names. -/
def State.evictAll (s : State) (p : Nat → Bool) : State :=
  let lines : List Nat := s.lines.map Prod.fst ++ s.lpddr.map fun (c : Host.Cell) => c.1 / 128
  (lines.eraseDups.filter p).foldl (fun s n => s.evict n) s

/-- A full set of a slice makes room for a line (R12): 16 ways of 4,096 sets; which line leaves is free (entry 5). -/
def makeRoom (line home : Nat) (s : State) : State :=
  let held := s.lines.filter fun l => !l.2.again && l.2.home == home && l.1 != line && Config.sliceSet l.1 % 4096 == Config.sliceSet line % 4096
  let free := held.filter fun l => l.2.bad.isNone
  if held.length < 16 then s
  else match free[Config.pick s.seed % free.length]? with
    | some l => (s.drawn).evict l.1
    | none => s.drawn

/-- The slice holds the line: where it had dropped it, this fill has started the tag again (R223). -/
def Line.filled (l : Line) : Line := { l with again := false, restarted := l.restarted || l.again }

/-- The trace record of an access marks the fill (R223). -/
def State.fillMarked (s : State) (pa : Nat) : State :=
  { s with lines := insertK s.lines (pa / 128) { s.line pa with restarted := false } }

/-- Something reaches a line at its home slice, which fills it where it does not hold it (R220, R223). -/
def State.reached (s : State) (home pa : Nat) : State :=
  let s1 := makeRoom (pa / 128) home s
  { s1 with lines := insertK s1.lines (pa / 128) { (s1.line pa).filled with home := home } }

/-- The slice may have dropped the line in the meantime (R223, entry 5). -/
def refillLine (pa : Nat) (s : State) : State :=
  if s.choose 2 = 1 ∧ (s.line pa).tag ≠ 0 then (s.drawn).evict (pa / 128) else s.drawn

/-- One step of a line's order that writes bytes (R221, R223): the older values are kept for R227, the tag rises. -/
def State.sliceWrite (s : State) (pa : Nat) (bs : List Byte) : State :=
  let st := s.stamp + 1
  let cells := cellsAt pa bs
  let l := s.line pa
  { s with stamp := st,
           older := s.older ++ cells.map fun c => ⟨c.1, st, s.rd c.1⟩,
           lpddr := s.lpddr ++ (cells.filter fun c => !(s.lpddr.any fun d => d.1 == c.1)).map fun c => (c.1, s.rd c.1),
           lines := insertK s.lines (pa / 128) { l.wrote (pa % 128) bs.length with tag := l.tag + 1 },
           wrote := cells.reverse ++ s.wrote }

/-- A step of a line's order that leaves the bytes as they are and raises the tag (R223). -/
def State.sliceTouch (s : State) (pa : Nat) : State :=
  let l := s.line pa
  { s with lines := insertK s.lines (pa / 128) { l with tag := l.tag + 1 } }

/-- A byte as the line order stood at stamp `x`. -/
def State.asOf (s : State) (pa x : Nat) : Byte :=
  match s.older.find? (fun o => o.pa == pa && decide (x < o.stamp)) with
  | some o => o.val
  | none => s.rd pa

/-- The stamps from `least` on at which bytes [pa, pa + n) have taken another value: those that R227 leaves open to a reader. They do not
depend on what is written elsewhere (R429). -/
def State.stamps (s : State) (pa n least : Nat) : List Nat :=
  least :: ((s.older.filter fun o => decide (pa ≤ o.pa) && decide (o.pa < pa + n) && decide (least < o.stamp)).map fun o => o.stamp).eraseDups

/-- One of them, by free value `k`. -/
def State.pickStamp (s : State) (pa n least k : Nat) : Nat :=
  (s.stamps pa n least).getD (Config.pick k % (s.stamps pa n least).length) least

/-- A byte of LPDDR 5X as a table walk reads it: when a slice holds a newer value, either (entry 17), but for a marked line, which is never
written back (R28). -/
def State.lpByte (s : State) (old : Bool) (pa : Nat) : Byte :=
  match s.lpddr.find? (fun c => c.1 == pa) with
  | some c => if old || (s.line pa).bad.isSome then c.2 else s.rd pa
  | none => s.rd pa

/-! ### Translation -/

/-- What a walk finds (R266). -/
inductive Walked where
  | leaf (l : Leaf)
  | fault (reason level : Nat)
  | migrating
  deriving DecidableEq, Repr

/-- ADDR of a table entry (R265), as a byte address. -/
def entryAddr (e : Nat) : Nat := fld e 16 24 * 65536

/-- A malformed entry of R265 at a level. -/
def entryBad (p : Part) (e level : Nat) : Bool :=
  fld e 3 2 == 3 || fld e 40 24 != 0 || fld e 5 11 != 0 || bitOf e 0 ||
    (level == 1 && bitOf e 2) || (level == 3 && !bitOf e 2) ||
    (level == 2 && bitOf e 2 && fld e 16 12 != 0) || !p.owns (entryAddr e)

/-- Judges an entry: none goes on with it (R265, R266). -/
def entryStop (p : Part) (e level : Nat) : Option Walked :=
  if fld e 3 2 = 0 then some (.fault 1 level)
  else if entryBad p e level then some (.fault 3 level)
  else if fld e 3 2 = 2 then some .migrating
  else none

/-- The three-level walk of R264 on the partition-local address `va`. -/
def State.walk (s : State) (pn : Fin 24) (va : Nat) : Walked :=
  let p := s.part pn
  let old := s.choose 2 == 1
  let entry (base i : Nat) : Nat := ofBytes ((List.range 8).map fun j => s.lpByte old (base + 8 * i + j))
  let e1 := entry (fld p.maproot.toNat 16 24 * 65536) (fld va 40 12)
  match entryStop p e1 1 with
  | some w => w
  | none =>
    let e2 := entry (entryAddr e1) (fld va 28 12)
    match entryStop p e2 2 with
    | some w => w
    | none =>
      if bitOf e2 2 then .leaf { big := true, vpn := va / 2 ^ 28, pa := entryAddr e2, w := bitOf e2 1, part := pn }
      else
        let e3 := entry (entryAddr e2) (fld va 16 12)
        match entryStop p e3 3 with
        | some w => w
        | none => .leaf { big := false, vpn := va / 2 ^ 16, pa := entryAddr e3, w := bitOf e3 1, part := pn }

/-- Physical address through a leaf. -/
def Leaf.pa_ (l : Leaf) (va : Nat) : Nat := l.pa + va % (if l.big then 2 ^ 28 else 2 ^ 16)

def Leaf.covers (l : Leaf) (va : Nat) : Bool := l.vpn == va / (if l.big then 2 ^ 28 else 2 ^ 16)

/-- Partition-local address of a GVA (R264). -/
def vaOf (gva : Word) : Nat := gva.toNat % 2 ^ 52

/-- Peer field of a GVA (R264). -/
def peerOf (gva : Word) : Nat := gva.toNat / 2 ^ 52

def Link.pos (l : Link) : Nat := fld l.standcfg.toNat 0 12
def Link.join (l : Link) : Bool := bitOf l.standcfg.toNat 27

/-- The peer field names this device (R413). -/
def State.ownDevice (s : State) (p : Nat) : Bool := p == 4095 || (s.link.join && p == s.link.pos)

/-- The check of R413. -/
def State.peerPasses (s : State) (pn : Fin 24) (p : Nat) : Bool :=
  s.ownDevice p ||
    (s.link.join && decide (p ≤ 3540) && bitOf (lookupD s.link.routes p (0 : Word)).toNat 63 &&
      (s.part pn).peerwin.getLsbD p)

/-- Translation by the root, the bridge and the ring writers: at once, none where it faults or waits (R110, R424). -/
def State.gvaPa (s : State) (pn : Fin 24) (gva : Word) : Option Nat :=
  if s.ownDevice (peerOf gva) then
    match s.walk pn (vaOf gva) with
    | .leaf l => some (l.pa_ (vaOf gva))
    | _ => none
  else none

/-- As `gvaPa`, for a write. -/
def State.gvaPaW (s : State) (pn : Fin 24) (gva : Word) : Option Nat :=
  if s.ownDevice (peerOf gva) then
    match s.walk pn (vaOf gva) with
    | .leaf l => if l.w then some (l.pa_ (vaOf gva)) else none
    | _ => none
  else none

/-- A STATE 2 entry holds up the translation of an address by a ring writer (R266). -/
def State.gvaWaits (s : State) (pn : Fin 24) (gva : Word) : Bool :=
  s.ownDevice (peerOf gva) && s.walk pn (vaOf gva) == .migrating

/-- Reads bytes at a GVA through the partition's tables, none where any byte does not translate. -/
def State.gvaRead (s : State) (pn : Fin 24) (gva : Word) (n : Nat) : Option (List Byte) :=
  (List.range n).mapM fun i => (s.gvaPa pn (gva + BitVec.ofNat 64 i)).map s.rd

/-- Writes bytes at a GVA at its home slices in lines' order, 8 bytes and fewer at a time as given. -/
def State.gvaWrite (s : State) (pn : Fin 24) (gva : Word) (bs : List Byte) : Option State :=
  (s.gvaPaW pn gva).map fun pa => (s.reached (s.home pn (vaOf gva)) pa).sliceWrite pa bs

/-- What the core's map unit answers for an access (R245, R267). -/
inductive Trans where
  | hit (pa : Nat)
  | wait
  | fault (reason level : Nat)
  deriving DecidableEq, Repr

/-- Starts a walk of the page of `va` unless one is under way (E7 counts the miss). -/
def startWalk (va : Nat) (s : State) : State :=
  if s.core.walks.any (fun w => w.1 == va / 65536) then s
  else ((s.modCore fun c => { c with walks := (va / 65536, .pending) :: c.walks }).count 7 1).later 1
    (.tableWalk s.key (va / 65536))

/-- A leaf of the partition's tables that a MAPINVC in progress removes (R268). -/
def Part.removes (p : Part) (l : Leaf) : Bool := p.mapBusy && (p.mapCmd == 2 || l.covers (vaOf p.mapAt))

/-- The cached leaf that serves the context in view for an address (R267, entry 89). -/
def Core.leafOf (c : Core) (va : Nat) : Option Leaf := c.tlb.find? fun l => l.part == c.act.part && l.covers va

/-- Enters a leaf; one of the 512 makes room (R267, entry 5). -/
def Core.addLeaf (l : Leaf) (pick : Nat) (c : Core) : Core :=
  { c with tlb := l :: (if c.tlb.length < 512 then c.tlb else c.tlb.eraseIdx (pick % c.tlb.length)) }

def Core.dropWalk (page : Nat) (c : Core) : Core := { c with walks := c.walks.filter fun w => w.1 != page }

/-- The permission that a leaf gives (R266). -/
def Leaf.grant (l : Leaf) (va : Nat) (write : Bool) : Trans :=
  if write && !l.w then .fault 2 (if l.big then 2 else 3) else .hit (l.pa_ va)

/-- The walk of `va`'s page ends now (R266). -/
def endWalk (va : Nat) (write : Bool) (s : State) : State × Trans :=
  match s.walk s.core.act.part va with
  | .leaf l => (s.drawn.modCore fun c => (c.dropWalk (va / 65536)).addLeaf l s.seed, l.grant va write)
  | .fault r l => (s.drawn.modCore (·.dropWalk (va / 65536)), .fault r l)
  | .migrating =>
    ((s.drawn.modCore fun c => { c.dropWalk (va / 65536) with walks := (va / 65536, .pending) :: c.walks }).at
      (s.time + 256) (.walkRetry s.key (va / 65536)), .wait)

/-- Translation of an own-device address through the translation cache. While MAPINVC removes a leaf, either it or a new
walk serves an access (R267). -/
def translate (va : Nat) (write : Bool) (s : State) : State × Trans :=
  match s.core.leafOf va with
  | some l =>
    if (s.part s.core.act.part).removes l && s.choose 2 == 1 then
      (startWalk va (s.drawn.modCore fun c => { c with tlb := c.tlb.filter (· != l) }), .wait)
    else (s, l.grant va write)
  | none =>
    match s.core.walks.find? (fun w => w.1 == va / 65536) with
    | some (_, .ready) => endWalk va write s
    | some (_, .pending) => (s, .wait)
    | none => (startWalk va s, .wait)

/-! ### Scratchpad -/

/-- The region that holds a scratchpad offset (R258). -/
def Core.regionAt (c : Core) (a : Nat) : Option (Nat × Region) :=
  (c.regions.toList.zipIdx.find? fun r => r.1.mode != 0 && decide (r.1.spa ≤ a) && decide (a < r.1.spa + r.1.size)).map
    fun r => (r.2, r.1)

/-- The swizzle of R253 on an offset inside a region of span code `code`. -/
def swizzle (code a : Nat) : Nat :=
  if code = 0 ∨ 7 ≤ code then a
  else
    let k := code + 3
    let n := 2048 / 2 ^ k
    let row := a / 2048
    let g2 := (a / 2 ^ k % n) ^^^ (row % n)
    row * 2048 + g2 * 2 ^ k + a % 2 ^ k

/-- Physical scratchpad offset of an offset (R253). -/
def Core.physOff (c : Core) (a : Nat) : Nat :=
  match c.regionAt a with
  | some (_, r) => r.spa + swizzle r.span (a - r.spa)
  | none => a

def Core.spRead (c : Core) (a n : Nat) : List Byte := (List.range n).map fun i => c.spm.read (c.physOff (a + i))

def Core.granSt (c : Core) (g : Nat) : Gran := lookupD c.gran g .unfilled

/-- A granule of a write-back region that is written becomes DIRTY, or is marked rewritten (R260). -/
def Core.dirty (c : Core) (g : Nat) : Core :=
  match c.regionAt (4096 * g) with
  | some (_, r) =>
    if r.mode = 1 ∨ r.mode = 2 then
      match c.granSt g with
      | .clean => { c with gran := insertK c.gran g .dirty }
      | .writing n _ => { c with gran := insertK c.gran g (.writing n true) }
      | _ => c
    else c
  | none => c

/-- `writing` of a granule whose write-back waits for its translation. -/
def notYetSent : Nat := 33

/-- A write-back of the core waits for its translation: its stores have been issued, and not sent (R261). -/
def Core.heldBack (c : Core) : Bool := c.gran.any fun e => match e.2 with
  | .writing n _ => n == notYetSent
  | _ => false

/-- Element (r, c) of 32 bits of an m register. -/
def mGet (m : BitVec 262144) (r c : Nat) : Nat := (m >>> (32 * (64 * r + c))).toNat % 2 ^ 32

/-- Replaces element (r, c). -/
def mSet (m : BitVec 262144) (r c : Nat) (x : Nat) : BitVec 262144 :=
  let sh := 32 * (64 * r + c)
  (m &&& ~~~((BitVec.ofNat 262144 (2 ^ 32 - 1)) <<< sh)) ||| ((BitVec.ofNat 262144 (x % 2 ^ 32)) <<< sh)

/-- Writes of others reach the tile operations that they race with, and what complete operations overwrote there is forgotten: to bytes
while an operation works, to m elements from its issue on (R186, R198). -/
def Tile.raceWith (t : Tile) (ws : List Raced) : Tile :=
  let hits (o : TileOp) : List Raced := ws.filter fun w => !o.done && (w.reg.isSome || o.start.isSome)
  let fresh (p : TilePast) : TilePast :=
    { p with
      cells := p.cells.filter fun x => !(ws.any fun w => w.reg == none && w.row == x.1)
      m := p.m.map fun y => (y.1, ws.foldl (fun v w => if w.reg = some y.1 then mSet v w.row w.col w.now else v) y.2.1, y.2.2) }
  { t with ops := t.ops.map fun o => { o with raced := o.raced ++ hits o }, past := t.past.map fresh }

/-- Writes scratchpad bytes through the swizzle and marks the granules. A byte written loses its error mark. -/
def Core.spPut (c : Core) (a : Nat) (bs : List Byte) : Core :=
  let cells := (cellsAt a bs).map fun e => (c.physOff e.1, e.2)
  let c1 := { c with spm := c.spm.writes cells, spBad := c.spBad.filter fun x => !(cells.any fun e => e.1 == x) }
  if bs = [] then c1
  else ((List.range ((a + bs.length - 1) / 4096 - a / 4096 + 1)).map (a / 4096 + ·)).foldl Core.dirty c1

/-- A write to the scratchpad by another party than the term engine (R198). -/
def Core.spWrite (c : Core) (a : Nat) (bs : List Byte) : Core :=
  let c1 := c.spPut a bs
  if c.tile.ops = [] ∧ c.tile.past = [] then c1
  else
    { c1 with tile := c1.tile.raceWith ((cellsAt a bs).map fun e =>
      ⟨none, e.1, 0, (c.spm.read (c.physOff e.1)).toNat, e.2.toNat⟩) }

/-- The values that byte `a` may show to a reader not ordered behind the tile operations that write it: theirs while they work, and what
they overwrote (R198). `fenced` says of a QFENCE's number whether it orders the reader. -/
def Core.racedByte (c : Core) (fenced : Option Nat → Bool) (a : Nat) : List Byte :=
  (c.tile.ops.filterMap fun o =>
    if o.done || fenced o.fence then none else o.eff.bind fun e => (e.cells.find? fun x => x.1 == a).map Prod.snd) ++
  (c.tile.past.filterMap fun p => if fenced p.fence then none else (p.cells.find? fun x => x.1 == a).map Prod.snd)

/-- Scratchpad bytes as a reader meets them, byte for byte one of the racing values (R198, entry 7). -/
def Core.spRaced (c : Core) (seed : Nat) (fenced : Option Nat → Bool) (a n : Nat) : List Byte :=
  (List.range n).map fun i =>
    match c.racedByte fenced (a + i) with
    | [] => c.spm.read (c.physOff (a + i))
    | l => (c.spm.read (c.physOff (a + i)) :: l).getD (Config.pick (seed + 32 * i) % (l.length + 1)) 0

/-- No QFENCE orders a reader that is no copy. -/
def unfenced (_ : Option Nat) : Bool := false

/-- A read of the own scratchpad by a load or a stream, with the choices that it uses up. -/
def State.spLook (s : State) (fenced : Option Nat → Bool) (a n : Nat) : List Byte × State :=
  if s.core.tile.ops = [] ∧ s.core.tile.past = [] then (s.core.spRead a n, s)
  else (s.core.spRaced s.seed fenced a n, { s with draws := s.draws + n })

/-- What a touch of a granule answers (R260). -/
inductive Touch where
  | ok
  | wait
  | fault (gva : Word) (reason level : Nat)
  deriving DecidableEq, Repr

/-- Touches one granule of the core in view: fills start here, after translation and peer check (R260, R266). -/
def touchGran (g : Nat) (s : State) : State × Touch :=
  match s.core.regionAt (4096 * g) with
  | none => (s, .ok)
  | some (_, r) =>
    let gva := r.gva + BitVec.ofNat 64 (4096 * g - r.spa)
    match s.core.granSt g with
    | .unfilled =>
      if r.mode = 2 ∧ ¬ r.refill then (s.modCore fun c => { c with gran := insertK c.gran g .clean }, .ok)
      else if !s.ownDevice (peerOf gva) then (s, .fault gva 4 0)
      else
        match translate (vaOf gva) false s with
        | (s1, .hit pa) =>
          ((s1.modCore fun c => { c with gran := insertK c.gran g (.filling s1.stamp pa) }).later 1
            (.granuleFillComplete s.key (Fin.ofNat 768 g)), .wait)
        | (s1, .wait) => (s1, .wait)
        | (s1, .fault rs lv) => (s1, .fault gva rs lv)
    | .filling _ _ => (s, .wait)
    | .faulted rs lv => (s.modCore fun c => { c with gran := insertK c.gran g .unfilled }, .fault gva rs lv)
    | _ => (s, .ok)

/-- Touches granules in order up to the first that is not ready. -/
def touchList : List Nat → State → State × Touch
  | [], s => (s, .ok)
  | g :: gs, s =>
    match touchGran g s with
    | (s1, .ok) => touchList gs s1
    | r => r

/-- The granules that bytes [a, a + n) of the scratchpad lie in. -/
def gransOf (a n : Nat) : List Nat := if n = 0 then [] else (List.range ((a + n - 1) / 4096 - a / 4096 + 1)).map (a / 4096 + ·)

/-- Touches the granules of bytes [a, a + n). -/
def touch (a n : Nat) (s : State) : State × Touch := touchList (gransOf a n) s

/-- The region store check of R259: a core store into a read-only region. -/
def Core.roHit (c : Core) (a n : Nat) : Bool :=
  (gransOf a n).any fun g =>
    match c.regionAt (4096 * g) with
    | some (_, r) => r.mode == 3
    | none => false

/-! ### Handles -/

/-- The record of a discarded credit (R296); `det` are DETAIL1 bits besides the byte count and the reason. -/
structure Creditor where
  ctxid : Word
  einfo : Word
  gva : Word
  detail0 : Word
  detail1 : Nat
  deriving DecidableEq, Repr

/-- One credit of `n` bytes (R277, R278): the handle after it, and the bytes discarded. `written` credits match
FILLING only, the others DRAINING only. -/
def Handle.credit (h : Handle) (n : Nat) (written : Bool) : Handle × Nat :=
  match h.st with
  | .free | .full => ({ h with err := true }, n)
  | .filling =>
    if written then
      if h.arr + n < h.exp then ({ h with arr := h.arr + n }, 0)
      else ({ h with arr := h.exp, st := .full, ph := !h.ph, err := h.err || decide (h.exp < h.arr + n) },
            h.arr + n - h.exp)
    else ({ h with err := true }, n)
  | .draining =>
    if written then ({ h with err := true }, n)
    else if h.arr + n < h.exp then ({ h with arr := h.arr + n }, 0)
    else ({ h with arr := h.exp, st := .free, err := h.err || decide (h.exp < h.arr + n) }, h.arr + n - h.exp)

/-- Credits a handle of the core in view and writes the reason-8 record for what is discarded. A credit of nothing
does nothing. -/
def creditHandle (i : Fin 256) (n : Nat) (written : Bool) (by_ : Creditor) (s : State) : State :=
  if n = 0 then s
  else
    let (h, lost) := (s.core.handles[i]).credit n written
    let s1 := s.modCore fun c => { c with handles := c.handles.set i h }
    if lost = 0 then s1
    else pushRecord s.core.act.part
      { cause := 0x44, slot := 5, ctxid := by_.ctxid, time := s.time, pos := 0, einfo := by_.einfo, gva := by_.gva,
        detail0 := by_.detail0, detail1 := BitVec.ofNat 64 (by_.detail1 + lost % 2 ^ 32 * 2 ^ 16 + 8 * 2 ^ 12),
        stopped := false } s1

/-! ### Requests -/

/-- Tokens of the meter of core `k` in partition `p` (R428). -/
def State.meshTokens (s : State) (k : CoreKey) (p : Fin 24) : Nat := (s.coreAt k).meshTok.getD (lookupD (s.part p).coreTok k.cl.val 0)

/-- The meters of core `k` and of partition `p` in its ply have tokens for `n` bytes (R428, entry 92). -/
def State.meshOpen (s : State) (k : CoreKey) (p : Fin 24) (n : Nat) : Bool :=
  decide (16 * n ≤ s.meshTokens k p) && decide (16 * n ≤ lookupD (s.part p).plyTok (plyOf k.cl.val).val 0)

/-- They give them. -/
def State.meshTake (s : State) (k : CoreKey) (p : Fin 24) (n : Nat) : State :=
  let ply := (plyOf k.cl.val).val
  (s.modAt k fun c => { c with meshTok := some (s.meshTokens k p - 16 * n) }).modPart p fun q =>
    { q with plyTok := insertK q.plyTok ply (lookupD q.plyTok ply 0 - 16 * n) }

/-- Changes the request `id`. -/
def State.modReq (s : State) (id : Nat) (f : Req → Req) : State :=
  { s with reqs := s.reqs.map fun r => if r.id = id then f r else r }

/-- A request enters the mesh once its core's and its partition's meters have tokens for its bytes; it waits at its source meanwhile
(R428). -/
def State.inject (s : State) (r : Req) : Option State :=
  if r.injected then some s
  else if s.meshOpen r.key r.part r.size then some ((s.meshTake r.key r.part r.size).modReq r.id fun q => { q with injected := true })
  else none

def State.req? (s : State) (id : Nat) : Option Req := s.reqs.find? fun r => r.id == id

def State.dropReq (s : State) (id : Nat) : State := { s with reqs := s.reqs.filter fun r => r.id != id }

/-- Strip of a physical slot (R335). -/
def stripOf (sl : Nat) : Nat := if sl < 50 then sl / 10 else sl / 10 + 2

/-- Strip distance of two cores of a cluster (R335). -/
def stripDist (a b : CoreKey) : Nat := (stripOf a.sl.val - stripOf b.sl.val) + (stripOf b.sl.val - stripOf a.sl.val)

/-- Sends a request of the core in view toward its home slice, the canopy or a peer (R224, R226, R255, R412). -/
def sendReq (r : Req) (s : State) : State :=
  let s1 := { s with reqs := s.reqs ++ [r] }
  match r.kind with
  | .peerLoad k | .peerStore k => s1.later (6 + stripDist r.key k) (.peerAccess r.id)
  | _ =>
    match r.remote with
    | some _ => s1.later 1 (.remoteRequest (.leaves r.id)) |>.at (s.time + 2 ^ 20) (.remoteTimeout r.id)
    | none => s1.later 1 (.homeSliceApply r.id)

/-- The tick `now` is one of those that a PAUSE of the core's context freezes: the issue tick is none (R351, R354). -/
def Core.pausing (now : Nat) (c : Core) : Bool :=
  c.act.st == .running && match c.act.stage, c.act.bun with
    | some (.pauseUntil _), some b => decide (b.tick < now)
    | _, _ => false

/-- A request of the context itself, of no engine: it ranks below the others of its partition while the context pauses (R351). -/
def State.pausing (s : State) (r : Req) : Bool :=
  let own := match r.kind with
    | .copyWrite _ _ _ _ | .copyReduce _ _ _ => false
    | _ => true
  own && (s.coreAt r.key).act.gid == r.ctx && (s.coreAt r.key).pausing s.time

/-- A number that no other request, beat or message bears. -/
def State.newId (s : State) : Nat := s.seed

/-- The request that a slot of the core in view makes, before its own particulars. -/
def mkReq (s : State) (kind : ReqKind) (gva : Word) (pa size : Nat) : Req :=
  { id := s.newId, kind := kind, key := s.key, part := s.core.act.part, ctx := s.core.act.gid, gva := gva, pa := pa,
    size := size, sext := false, data := 0, cls := 0, scope := .core, acq := false, acqFail := false, remote := none,
    applied := false, sent := 0, tag := 0, bad := 0, okay := false, least := s.core.act.fresh,
    refill := false, slot := 2, pos := s.core.act.pos,
    issue := s.time, held := false }

/-- Which unacknowledged stores the release wait of a scope waits for (R231). -/
def scopeWaits (sc : Scope) (t : Tok) : Bool :=
  match sc with
  | .core => false
  | .cluster | .ply | .device => !t.remote && !t.clearing
  | .stack => !t.remote
  | .stand => true

/-- A copy write on its way: a plain store of the context (R224, R289). -/
def Req.copyStore (r : Req) : Bool :=
  match r.kind with
  | .copyWrite _ _ _ _ => true
  | _ => false

/-- The copy whose write or step the request is (R289, R293). -/
def Req.copyOf (r : Req) : Option Nat :=
  match r.kind with
  | .copyWrite c _ _ _ | .copyReduce c _ _ => some c
  | _ => none

/-- One to the own scratchpad, which no release wait reaches (R231). -/
def Req.ownPad (r : Req) : Bool :=
  match r.kind with
  | .copyWrite _ _ _ k => k == some r.key
  | _ => false

/-- Plain stores of the core that are not acknowledged (R224); the writes of its copies are not among them (R288). -/
def Core.unacked (c : Core) : Nat := (c.toks.filter fun t => t.store && t.plain && !t.clearing).length

/-- The release wait of R228: no earlier store that the scope reaches is unacknowledged, and every earlier load has
its value bound: a CXCH counts as a load at every scope (R368; entry 96, DESIGN CHOICE). -/
def releaseReady (sc : Scope) (s : State) : Bool :=
  (s.core.toks.all fun t => t.store && !scopeWaits sc t) && !(s.core.heldBack && scopeWaits sc ⟨0, true, false, 0, false, false⟩) &&
    s.reqs.all fun r => !(r.key == s.key && r.copyStore && !r.ownPad && scopeWaits sc ⟨r.id, true, r.remote.isSome, r.cls, false, true⟩)

/-- Scopes reach the lines of this device, and .stand the others too (R231). -/
def Ctx.refresh (c : Ctx) (r : Refresh) : Ctx :=
  match r.scope with
  | .core => c
  | .stand => { c with fresh := Nat.max c.fresh r.stamp, freshAll := Nat.max c.freshAll r.stamp }
  | _ => { c with fresh := Nat.max c.fresh r.stamp }

/-- The role-to-slot binding of the gang of a context (R337). -/
def State.gang? (s : State) (id : Nat) : Option Gang := s.gangs.find? fun g => g.id == id

def State.modGang (s : State) (id : Nat) (f : Gang → Gang) : State :=
  { s with gangs := s.gangs.map fun g => if g.id = id then f g else g }

/-- The gang size of the context in view. -/
def State.gangSize (s : State) : Nat :=
  match s.gang? s.core.act.gid with
  | some g => g.size
  | none => 1

/-- The core bound to a role of the context's gang. -/
def State.roleCore (s : State) (r : Nat) : Option CoreKey :=
  match s.gang? s.core.act.gid with
  | some g => (g.members.find? fun m => m.role == r).map fun m => ⟨Fin.ofNat 24 g.cl, Fin.ofNat 100 m.sl⟩
  | none => if r = s.core.act.role then some s.key else none

end Sys2Proof.Machine
end

