-- ==== Sys2Proof/Machine/Operands.lean ====
section
/-! DEFINITION. Every operand form of the spec: scalar sources, guards and masks, vector operands, effective
addresses, m operands (R37-R42, R48, R162-R165, R243). -/

namespace Sys2Proof.Machine

/-- A 7-bit scalar source (R40). -/
def readSrc (r : RegFile) : Src → Word
  | .s i => r.rs i
  | .l n => r.lat[n].setWidth 64
  | .imm v => v.signExtend 64

/-- A scalar source of the core in view. -/
def State.src (s : State) (x : Src) : Word := readSrc s.core.act.view x

/-- An s register of the core in view. -/
def State.sreg (s : State) (i : Fin 64) : Word := s.core.act.view.rs i

/-- Guard of a slot other than S3: p(GI) XOR GN (R37). -/
def State.guard (s : State) (g : Guard) : Bool := s.core.act.view.rp g.idx ^^ g.neg

/-- Guard of S3: the mask register or its complement (R38). -/
def State.maskOf (s : State) (g : Guard) : Word :=
  let k := s.core.act.view.rk g.idx
  if g.neg then ~~~k else k

/-- A guarded slot instruction outside S3: with a false guard it commits and does nothing (R37). -/
def slotOp (sl : Nat) (g : Guard) (f : State → State) (s : State) : Res :=
  .next (keep s (if s.guard g then f s else commit sl s))

/-- Counts the vector instruction when its slot has committed (R438). -/
def countVec (s : State) : State :=
  match s.core.act.bun with
  | some b => if b.done.getLsbD 3 then s.count 23 1 else s
  | none => s

/-- A slot instruction of S3, which issues whatever its mask holds (R38). -/
def vecOp (f : State → State) (s : State) : Res := .next (keep s (countVec (f s)))

def slotNo : ScalarSlot → Nat
  | .s0 => 0
  | .s1 => 1

/-! ### Vector operands -/

/-- What reading a vector operand gives (R164). -/
inductive VRead where
  | val (x : Vec)
  | empty
  | bad (code : Nat)
  | error (at_ : Nat)
  deriving DecidableEq, Repr

/-- A window as an operand: an uncorrectable error in it is met here (R27, R164). -/
def winRead (w : Win) : VRead :=
  match w.2 with
  | some a => .error a
  | none => .val w.1

/-- Reads a vector source; an inbound f gives the window at the position (R163, R164). -/
def Core.readV (c : Core) : VOp → VRead
  | .v i => .val c.act.view.v[i]
  | .l i => .val c.act.view.lat[i]
  | .none => .val 0
  | .f i =>
    match c.act.wins.find? (fun x => x.1 == i.val) with
    | some x => winRead x.2
    | none =>
      match c.feeds[i] with
      | none => .bad (32 + i.val)
      | some fd =>
        if fd.pat.out then .bad (32 + i.val)
        else
          match fd.buf with
          | [] => .empty
          | w :: _ => winRead w

/-- What an f destination answers (R164). -/
inductive DstRead where
  | ok
  | full
  | bad (code : Nat)
  deriving DecidableEq, Repr

def Core.dstReady (c : Core) : VOp → DstRead
  | .f i =>
    match c.feeds[i] with
    | none => .bad (32 + i.val)
    | some fd => if !fd.pat.out then .bad (32 + i.val) else if 4 ≤ fd.res.length then .full else .ok
  | _ => .ok

/-- Takes the windows that a committing slot reads and forgets them: the issue owns them (R164). -/
def Core.useWindows (c : Core) (fs : List (Fin 8)) : Core :=
  let c1 := fs.foldl Core.takeWindow c
  { c1 with act := { c1.act with wins := c1.act.wins.filter fun x => !(fs.any fun f => f.val == x.1) } }

/-- Reserves one outbound window and names it (R164, R300). -/
def Core.reserve (c : Core) (i : Fin 8) : Core :=
  match c.feeds[i] with
  | none => c
  | some fd =>
    let (wi, pa) := fd.pat.advance fd.win fd.pass
    { c with feeds := c.feeds.set i (some { fd with win := wi, pass := pa, res := fd.res ++ [(fd.pass, fd.win, none)] }) }

/-- The reservation an f destination fills at landing: pass × 2^32 + window. -/
def Core.resKey (c : Core) (i : Fin 8) : Nat :=
  match c.feeds[i] with
  | some fd => fd.pass * 2 ^ 32 + fd.win
  | none => 0

/-- *old* of R165: a v register's value; zero for f and `-`. -/
def Core.oldV (c : Core) : VOp → Vec
  | .v i => c.act.view.v[i]
  | _ => 0

/-- The merge of R165 by element. -/
def mergeLanes (w : Nat) (mask : Word) (old : Vec) (res : List Nat) : Vec :=
  BitVec.ofNat 2048 (ofLanes w (res.mapIdx fun j x => if mask.getLsbD (w * j / 32) then x else lane w old j))

/-- A latency one larger when a source is an inbound f (R113). -/
def feedLat (lat : Nat) (fs : List (Fin 8)) : Nat := if fs = [] then lat else lat + 1

/-- A vector instruction's operands: traps and freezes of R164 (and the machine check of R27) on the sources in order and the destination,
then `go` on the sources. Of several f operands that are not bound EINFO names the first in this order (entry 88, DESIGN CHOICE). -/
def withV (srcs : List VOp) (d : VOp) (go : List Vec → State → State) (s : State) : State :=
  let reads := srcs.map s.core.readV
  let bad := (reads.filterMap fun r => match r with | .bad c => some c | _ => none) ++
    (match s.core.dstReady d with | .bad c => [c] | _ => [])
  match bad with
  | c :: _ => trapAt 3 9 (BitVec.ofNat 64 c) s
  | [] =>
    if reads.any (fun r => r == .empty) || s.core.dstReady d == .full then stall s
    else
      let vals := reads.map fun r => match r with | .val x => x | _ => 0
      match reads.filterMap fun r => match r with | .error a => some a | _ => none with
      | a :: _ => trapAt 3 0x13 (BitVec.ofNat 64 a) s
      | [] => go vals (s.modCore fun c => c.useWindows (srcs.flatMap feedOf).eraseDups)

/-- Lands a vector result in its destination, in L6 and L7 (R44, R163, R164). -/
def landV (lat : Nat) (fs : List (Fin 8)) (d : VOp) (x : Vec) (extra : List RegWrite) (flags : Word) (s : State) : State :=
  match d with
  | .v i => land 3 (feedLat lat fs) (some x) (.v i x :: extra) flags s
  | .f i =>
    let k := s.core.resKey i
    land 3 (feedLat lat fs) (some x) (.feed i k x :: extra) flags (s.modCore fun c => c.reserve i)
  | _ => land 3 (feedLat lat fs) (some x) extra flags s

/-! ### Effective addresses -/

/-- EA of format MEM (R243). -/
def eaMem (s : State) (base : Fin 64) (off : BitVec 6) (size : Nat) : Word :=
  s.sreg base + off.signExtend 64 * BitVec.ofNat 64 size

/-- EA of format SYN (R243). -/
def eaSyn (s : State) (base : Fin 64) (off : BitVec 5) (size : Nat) : Word :=
  s.sreg base + off.signExtend 64 * BitVec.ofNat 64 size

def sizeL : LoadW → Nat
  | .b | .bu => 1 | .h | .hu => 2 | .w | .wu => 4 | .d => 8

def signedL : LoadW → Bool
  | .b | .h | .w => true
  | _ => false

def sizeS : StoreW → Nat
  | .b => 1 | .h => 2 | .w => 4 | .d => 8

def sizeD (dbl : Bool) : Nat := if dbl then 8 else 4

/-- A loaded value extended to 64 bits (R246). -/
def extend (size : Nat) (sgn : Bool) (v : Nat) : Word :=
  if sgn then BitVec.ofInt 64 (sInt (8 * size) v) else BitVec.ofNat 64 (v % 2 ^ (8 * size))

/-- SPA check of R244: own role or 0xFF or a role of the gang, offset inside the scratchpad. -/
def spaOk (s : State) (ea : Word) : Bool :=
  let a := ea.toNat % 2 ^ 32
  let role := a / 2 ^ 24
  fld a 22 2 == 0 && decide (fld a 0 22 ≤ 0x2FFFFF) &&
    (role == 0xFF || role == s.core.act.role || decide (role < s.gangSize))

/-- Whether the SPA names the own scratchpad (R244). -/
def spaOwn (s : State) (ea : Word) : Bool :=
  let role := ea.toNat % 2 ^ 32 / 2 ^ 24
  role == 0xFF || role == s.core.act.role

def spaOff (ea : Word) : Nat := fld ea.toNat 0 22

/-- SPA check of a descriptor, own scratchpad only, 64 bytes (R304). -/
def descOk (s : State) (a : Word) : Bool :=
  let role := fld a.toNat 24 8
  (role == 0xFF || role == s.core.act.role) && fld a.toNat 22 2 == 0 && decide (fld a.toNat 0 22 ≤ 0x2FFFC0)

/-- An 8-byte word of the own scratchpad. -/
def Core.word (c : Core) (a : Nat) : Nat := ofBytes (c.spRead a 8)

/-! ### m operands -/

/-- Position (row, column) of element `i` of an m operand (R48). -/
def mPos (d : Dir) (idx : Word) (i : Nat) : Nat × Nat :=
  let row0 := fld idx.toNat 0 7
  let col0 := fld idx.toNat 8 6
  match d with
  | .row => (row0, i)
  | .col => (64 * (row0 / 64) + i, col0)
  | .dia => ((row0 + i) % 128, (col0 + i) % 64)
  | .adia => ((row0 + i) % 128, (col0 + 64 - i % 64) % 64)

/-- Element (r, j) of a partial-sum buffer, 64 bits (R203). -/
def psGet (p : BitVec 524288) (r j : Nat) : Word := BitVec.ofNat 64 ((p >>> (64 * (64 * r + j))).toNat % 2 ^ 64)

/-- The m register as a list of 32-bit elements, row by row. -/
def mOfList (l : List Nat) : BitVec 262144 := BitVec.ofNat 262144 (ofLanes 32 l)

def psOfList (l : List Nat) : BitVec 524288 := BitVec.ofNat 524288 (ofLanes 64 l)

end Sys2Proof.Machine
end

