-- ==== Sys2Proof/Machine/LoadStore.lean ====
section
/-! DEFINITION. The plain loads and stores of slot S2: scratchpad, peer scratchpad and global memory (R224-R226,
R242-R246, R255, R256, R259). -/

namespace Sys2Proof.Machine

/-- GVA of a scratchpad byte inside a region (R259). -/
def Core.gvaOf (c : Core) (a : Nat) : Word :=
  match c.regionAt a with
  | some (_, r) => r.gva + BitVec.ofNat 64 (a - r.spa)
  | none => 0

/-- Some byte of `[a, a + n)` holds an uncorrectable error (R27, R242). -/
def Core.badAt (c : Core) (a n : Nat) : Bool := (List.range n).any fun i => c.spBad.contains (c.physOff (a + i))

/-- The checks of R244 on a scratchpad access, then the own or the peer side. -/
def spAccess (ea : Word) (n : Nat) (own peer : State → State) (s : State) : State :=
  if !spaOk s ea then trapAt 2 9 ea s
  else if ea.toNat % n ≠ 0 then trapAt 2 8 ea s
  else if spaOwn s ea then own s
  else peer s

/-- First touch of the own scratchpad by the core (R260, R267): EINFO is the GVA of the touched byte, the record names the granule's. `lost`
is what follows where a beat of the fill has exhausted its retries (R27). -/
def ownTouch (a n : Nat) (lost go : State → State) (s : State) : State :=
  match touch a n s with
  | (s1, .ok) => go s1
  | (s1, .wait) => stall s1
  | (s1, .fault g r l) => if r = errorReason then lost s1 else pageFault 2 (s1.core.gvaOf a) g r l s1

/-- A load of the own scratchpad as it stands at the issue tick, or as tile operations that it is not ordered behind leave it (R198,
R225, R242). -/
def ownLoad (ea : Word) (n : Nat) (go : Nat → State → State) (s : State) : State :=
  let a := spaOff ea
  ownTouch a n (trapAt 2 0x13 ea) (fun s =>
    if s.core.badAt a n then trapAt 2 0x13 ea s
    else go (ofBytes (s.spLook unfenced a n).1) (s.spLook unfenced a n).2) s

/-- A store to the own scratchpad at the issue tick (R225, R259). A store consumes nothing: where a fill was lost it waits for another
(R27, R242). -/
def ownStore (ea : Word) (n data : Nat) (s : State) : State :=
  let a := spaOff ea
  if s.core.roHit a n then pageFault 2 (s.core.gvaOf a) (s.core.gvaOf a) 2 0 s
  else ownTouch a n stall (fun s => commit 2 (s.modCore fun c => c.spWrite a (toBytes n data))) s

/-- The core that the role of an SPA names. -/
def State.peerOfSpa (s : State) (ea : Word) : CoreKey := (s.roleCore (ea.toNat % 2 ^ 32 / 2 ^ 24)).getD s.key

/-- Enters an unbound load or an unacknowledged store of the context (R224, R228). -/
def addTok (t : Tok) (s : State) : State := s.modCore fun c => { c with toks := c.toks ++ [t] }

/-- A result whose data a request returns (R226, R246): the flight waits for the request at its landing cycle. -/
def awaitData (lat : Nat) (ws : List RegWrite) (r : Req) (t : Tok) (s : State) : State :=
  let f : Flight := { due := s.core.act.cyc + lat, cyc := s.core.act.cyc, slot := 2, latch := none, writes := ws,
                      flags := 0, need := some r.id, refresh := none }
  commit 2 (sendReq r (addTok t (fly f s.drawn)))

/-- A peer load (R226, R255). -/
def peerLoadReq (ea : Word) (n : Nat) (sgn : Bool) (ac : Fin 4) (lat : Nat) (ws : List RegWrite) (s : State) : State :=
  let r := { mkReq s (.peerLoad (s.peerOfSpa ea)) ea (spaOff ea) n with sext := sgn, cls := ac }
  awaitData lat ws r ⟨r.id, false, false, ac, false, false⟩ s

/-- A posted store (R224): it freezes the core while 256 are unacknowledged. -/
def postStore (r : Req) (s : State) : State :=
  if 256 ≤ s.core.unacked then stall s
  else commit 2 (sendReq r (addTok ⟨r.id, true, r.remote.isSome, r.cls, false, true⟩ s.drawn))

/-- A peer store (R226). -/
def peerStoreReq (ea : Word) (n data : Nat) (ac : Fin 4) (s : State) : State :=
  postStore { mkReq s (.peerStore (s.peerOfSpa ea)) ea (spaOff ea) n with data := data, cls := ac } s

/-- The checks of R245 on a global access, in their order; `go` takes the target of a remote access and the physical
address of an own one. -/
def globalAccess (ea : Word) (n : Nat) (write : Bool) (go : Option Nat → Nat → State → State) (s : State) : State :=
  if ea.toNat % n ≠ 0 then trapAt 2 8 ea s
  else if !s.peerPasses s.core.act.part (peerOf ea) then trapAt 2 0xA ea s
  else if s.ownDevice (peerOf ea) then
    match translate (vaOf ea) write s with
    | (s1, .hit pa) => go none pa s1
    | (s1, .wait) => stall s1
    | (s1, .fault r l) => pageFault 2 ea ea r l s1
  else go (some (peerOf ea)) 0 s

/-- The register a load writes (R42, R246). -/
def loadDest (wb : Bool) (d : Fin 64) : List RegWrite := if wb then [.s d 0] else []

/-- LDS (R246). -/
def execLds (r : MemL) (s : State) : Res :=
  slotOp 2 r.g (fun s =>
    let n := sizeL r.w
    let ea := eaMem s r.base r.off n
    spAccess ea n (ownLoad ea n fun v => landS 2 5 r.wb r.reg (extend n (signedL r.w) v))
      (peerLoadReq ea n (signedL r.w) r.ac 5 (loadDest r.wb r.reg)) s) s

/-- STS (R246). -/
def execSts (r : MemS) (s : State) : Res :=
  slotOp 2 r.g (fun s =>
    let n := sizeS r.w
    let ea := eaMem s r.base r.off n
    let x := (s.sreg r.reg).toNat % 2 ^ (8 * n)
    spAccess ea n (ownStore ea n x) (peerStoreReq ea n x r.ac) s) s

/-- LDV (R246). -/
def execLdv (r : MemVL) (s : State) : Res :=
  slotOp 2 r.g (fun s =>
    let ea := eaMem s r.base r.off 256
    spAccess ea 256
      (ownLoad ea 256 fun v =>
        land 2 5 (some (BitVec.ofNat 2048 v)) (if r.wb then [.v r.reg (BitVec.ofNat 2048 v)] else []) 0)
      (peerLoadReq ea 256 false r.ac 5 (if r.wb then [.v r.reg 0] else [])) s) s

/-- STV (R246). -/
def execStv (r : MemVS) (s : State) : Res :=
  slotOp 2 r.g (fun s =>
    let ea := eaMem s r.base r.off 256
    let x := (s.core.act.view.v[r.reg]).toNat
    spAccess ea 256 (ownStore ea 256 x) (peerStoreReq ea 256 x r.ac) s) s

/-- LD (R227, R246). -/
def execLd (r : MemL) (s : State) : Res :=
  slotOp 2 r.g (fun s =>
    let n := sizeL r.w
    let ea := eaMem s r.base r.off n
    globalAccess ea n false (fun rem pa s =>
      let q := { mkReq s .load ea pa n with sext := signedL r.w, cls := r.ac, remote := rem }
      awaitData 14 (loadDest r.wb r.reg) q ⟨q.id, false, rem.isSome, r.ac, false, false⟩ (s.count 8 1)) s) s

/-- ST (R224, R246). -/
def execSt (r : MemS) (s : State) : Res :=
  slotOp 2 r.g (fun s =>
    let n := sizeS r.w
    let ea := eaMem s r.base r.off n
    let x := (s.sreg r.reg).toNat % 2 ^ (8 * n)
    globalAccess ea n true (fun rem pa s =>
      if 256 ≤ s.core.unacked then stall s
      else postStore { mkReq s .store ea pa n with data := x, cls := r.ac, remote := rem } (s.count 9 1)) s) s

end Sys2Proof.Machine
end

