-- ==== Sys2Proof/Machine/Atomic.lean ====
section
/-! DEFINITION. The synchronising instructions of slot S2: LDA, STL, ATOM, CAS, PHASE, FENCE (R228-R235,
R247-R250). -/

namespace Sys2Proof.Machine

def Order.releases : Order → Bool
  | .rel | .ar => true
  | _ => false

def Order.acquires : Order → Bool
  | .acq | .ar => true
  | _ => false

/-- A request of the synchronising kind: class 0 with its scope (R50). -/
def syncReq (s : State) (kind : ReqKind) (ea : Word) (pa n : Nat) (sc : Scope) (rem : Option Nat) : Req :=
  { mkReq s kind ea pa n with scope := sc, remote := rem }

/-- The release wait before a request is sent (R228). -/
def afterRelease (rel : Bool) (sc : Scope) (go : State → State) (s : State) : State :=
  if rel && !releaseReady sc s then stall s else go s

/-- LDA (R247). -/
def execLda (r : SynF) (s : State) : Res :=
  slotOp 2 r.g (fun s =>
    let n := sizeD r.dbl
    let ea := eaSyn s r.base r.off n
    globalAccess ea n false (fun rem pa s =>
      let q := { syncReq s .lda ea pa n r.scope rem with acq := true, acqFail := true }
      awaitData 14 [.s r.reg 0] q ⟨q.id, false, rem.isSome, 0, false, false⟩ (s.count 8 1)) s) s

/-- STL (R247): its write counts for later release waits, and is none of the plain stores of R224, of which 256 may be outstanding. -/
def execStl (r : SynF) (s : State) : Res :=
  slotOp 2 r.g (fun s =>
    let n := sizeD r.dbl
    let ea := eaSyn s r.base r.off n
    globalAccess ea n true (fun rem pa s =>
      afterRelease true r.scope (fun s =>
        let q := { syncReq s .stl ea pa n r.scope rem with data := (s.sreg r.reg).toNat % 2 ^ (8 * n) }
        commit 2 (sendReq q (addTok ⟨q.id, true, rem.isSome, 0, false, false⟩ s.drawn))) s) s) s

/-- ATOM (R248). -/
def execAtom (r : AtmF) (s : State) : Res :=
  slotOp 2 r.g (fun s =>
    let n := sizeD r.dbl
    let ea := s.sreg r.base
    globalAccess ea n true (fun rem pa s =>
      afterRelease (Order.releases r.ord) r.scope (fun s =>
        let q := { syncReq s (.atom r.op) ea pa n r.scope rem with
                   data := (s.sreg r.reg).toNat % 2 ^ (8 * n),
                   acq := Order.acquires r.ord, acqFail := Order.acquires r.ord }
        awaitData 14 [.s r.reg 0] q ⟨q.id, false, rem.isSome, 0, false, false⟩ (s.count 8 1)) s) s) s

/-- CAS (R249): the release wait takes place whatever the outcome will be. -/
def execCas (r : CsxF) (s : State) : Res :=
  slotOp 2 r.g (fun s =>
    let n := sizeD r.dbl
    let ea := s.sreg r.base
    globalAccess ea n true (fun rem pa s =>
      afterRelease (Order.releases r.succ) r.scope (fun s =>
        let q := { syncReq s (.cas (s.sreg r.reg)) ea pa n r.scope rem with
                   data := (s.sreg r.new).toNat % 2 ^ (8 * n),
                   acq := Order.acquires r.succ, acqFail := r.acqFail }
        awaitData 14 [.s r.reg 0] q ⟨q.id, false, rem.isSome, 0, false, false⟩ (s.count 8 1)) s) s) s

/-- PHASE (R250): a release point, then an acquire point with T the tick the wait ends. -/
def execPhase (r : OrdF) (s : State) : Res :=
  slotOp 2 r.g (fun s =>
    afterRelease true r.scope (fun s => commit 2 (s.modCtx fun c => c.refresh ⟨r.scope, s.stamp⟩)) s) s

/-- FENCE (R250): a release point, no refresh. -/
def execFence (r : OrdF) (s : State) : Res := slotOp 2 r.g (fun s => afterRelease true r.scope (commit 2) s) s

end Sys2Proof.Machine
end

