-- ==== Sys2Proof/Machine/Barrier.lean ====
section
/-! DEFINITION. The barrier instructions of slot S5 and PAUSE (R346-R354). -/

namespace Sys2Proof.Machine

/-- An acquire point at .stand with T the present tick (R229, R349). -/
def acquireStand (s : State) : State := s.modCtx fun c => c.refresh ⟨.stand, s.stamp⟩

/-- The present bundle goes on with stage `g`. -/
def setStage (g : Stage) (s : State) : State := s.modCtx fun c => { c with stage := some g }

/-- Own arrival bit of barrier `b` (R353). -/
def Ctx.hasArrived (c : Ctx) (b : Fin 16) : Bool := c.arrived.getLsbD b.val

/-- Closes the member's exchange phase (R341). -/
def Ctx.closePhase (c : Ctx) : Ctx := { c with epoch := none, broken := false }

/-- Sends the arrival, which is counted four ticks later (R348). -/
def sendArrival (b : Fin 16) (xph : Bool) (s : State) : State :=
  (s.modCtx fun c => { c with arrived := c.arrived ||| (1#16 <<< b.val) }).at (s.time + 4)
    (.barrierArrival s.core.act.gid b (Fin.ofNat 96 s.core.act.role) xph)

/-- Arrival at barrier `b` (R345, R353): the check, the phase closed, the release wait at .stand, then `go`. -/
def arrive (b : Fin 16) (xph : Bool) (go : State → State) (s : State) : State :=
  if s.core.act.hasArrived b then trapAt 5 9 (BitVec.ofNat 64 b.val) s
  else
    let s1 := s.modCtx Ctx.closePhase
    if !releaseReady .stand s1 then stall s1 else go (sendArrival b xph s1)

/-- BAR and XPH: arrival, then the wait for its own bit to be cleared (R345, R353). -/
def arriveAndWait (b : Fin 16) (xph : Bool) (s : State) : State :=
  match s.core.act.stage with
  | some (.barSent _) => if s.core.act.hasArrived b then stall s else commit 5 (acquireStand s)
  | _ => arrive b xph (fun s => stall (setStage (.barSent b) s)) s

/-- BAR (R353). -/
def execBar (r : BarF) (s : State) : Res := slotOp 5 r.g (arriveAndWait r.b false) s

/-- BARA (R353). -/
def execBara (r : BarF) (s : State) : Res := slotOp 5 r.g (arrive r.b false (commit 5)) s

/-- PH of a barrier of the context's gang. -/
def State.barPh (s : State) (b : Fin 16) : Bool :=
  match s.gang? s.core.act.gid with
  | some g => g.bars[b].ph
  | none => false

/-- BARW (R353). -/
def execBarw (r : BarwF) (s : State) : Res :=
  slotOp 5 r.g (fun s => if s.barPh r.b = r.ph then commit 5 (acquireStand s) else stall s) s

/-- PAUSE (R354): the core is frozen for the IMM + 1 ticks after the issue tick, which PAUSE_EXPIRY ends. -/
def execPause (r : ImtF) (s : State) : Res :=
  slotOp 5 r.g (fun s =>
    match s.core.act.stage with
    | some .over => commit 5 s
    | some (.pauseUntil _) => stall (s.count 24 1)
    | _ =>
      let t := s.time + r.imm.toNat + 1
      stall ((setStage (.pauseUntil t) s).at t (.pauseExpiry s.key))) s

/-- The ticks of a PAUSE have passed. -/
def pauseOver (s : State) : State :=
  match s.core.act.stage with
  | some (.pauseUntil t) => if t ≤ s.time then setStage .over s else s
  | _ => s

/-- PAUSE_EXPIRY (R354). -/
def execPauseExpiry (k : CoreKey) (s : State) : Res := .next (settle s (pauseOver (s.focus k)))

/-- XPH (R345). -/
def execXph (r : BarF) (s : State) : Res := slotOp 5 r.g (arriveAndWait r.b true) s

/-! ### Counting arrivals (R347) -/

/-- COUNT (R346). -/
def Barrier.count (b : Barrier) : Nat := ((List.range 96).filter fun r => b.arr.getLsbD r).length

/-- The core of a member, its context when that belongs to the gang. -/
def State.memberCore (g : Gang) (m : Member) : CoreKey := ⟨Fin.ofNat 24 g.cl, Fin.ofNat 100 m.sl⟩

def State.memberCtx (s : State) (g : Gang) (m : Member) : Ctx :=
  let c := s.coreAt (State.memberCore g m)
  if c.act.gid = g.id then c.act else c.sby

/-- Members that are not DONE (R346). -/
def State.notDone (s : State) (g : Gang) : Nat := (g.members.filter fun m => (s.memberCtx g m).st != .done).length

/-- Changes a member's active context. -/
def State.modMember (s : State) (g : Gang) (m : Member) (f : Ctx → Ctx) : State :=
  s.modAt (State.memberCore g m) fun c => if c.act.gid = g.id then { c with act := f c.act } else c

/-- What a completed phase does in a member: its arrival bit is cleared, and an XPH that waits opens its exchange
phase with epoch C + 4 (R341, R348). -/
def Ctx.phaseDone (c : Ctx) (b : Fin 16) (tick : Nat) : Ctx :=
  let opens : Bool := c.stage == some (.barSent b) &&
    match c.bun with
    | some x => (match x.slots with | .xph _ :: _ => true | _ => false)
    | none => false
  { c with arrived := c.arrived &&& ~~~(1#16 <<< b.val),
           epoch := if opens then some (tick + 4) else c.epoch, broken := if opens then false else c.broken }

/-- Completes the phase of barrier `b` with completion tick `tick`. -/
def completePhase (g : Gang) (b : Fin 16) (tick : Nat) (s : State) : State :=
  let s1 := s.modGang g.id fun x => { x with bars := x.bars.set b ⟨!x.bars[b].ph, 0, false⟩ }
  g.members.foldl (fun s m => s.modMember g m fun c => c.phaseDone b tick) s1

/-- All arrivals of a phase are counted: it completes, or with an XPH among them waits for the rails (R340, R347). -/
def phaseFull (g : Gang) (b : Fin 16) (s : State) : State :=
  if g.bars[b].xph then { s with railWait := s.railWait ++ [(g.id * 16 + b.val, s.time)] }
  else completePhase g b s.time s

/-- Counts one arrival. -/
def countArrival (gid : Nat) (b : Fin 16) (role : Nat) (xph : Bool) (s : State) : State :=
  let s1 := s.modGang gid fun g =>
    { g with bars := g.bars.set b { g.bars[b] with arr := g.bars[b].arr ||| (1#96 <<< role), xph := g.bars[b].xph || xph } }
  match s1.gang? gid with
  | none => s1
  | some g => if s1.notDone g ≤ g.bars[b].count then phaseFull g b s1 else s1

/-- BARRIER_ARRIVAL (R347). -/
def execBarrierArrival (g : Nat) (b : Fin 16) (role : Fin 96) (xph : Bool) (s : State) : Res :=
  .next (settle s (countArrival g b role.val xph s))

/-- A member has become DONE: every barrier at which it has not arrived is judged again (R347). -/
def memberDone (gid role : Nat) (s : State) : State :=
  (List.range 16).foldl (fun s i =>
    let b : Fin 16 := Fin.ofNat 16 i
    match s.gang? gid with
    | none => s
    | some g =>
      let x := g.bars[b]
      if x.arr != 0 && !x.arr.getLsbD role && decide (s.notDone g ≤ x.count) && !(s.railWait.any fun w => w.1 == gid * 16 + i)
      then phaseFull g b s else s) s

end Sys2Proof.Machine
end

