-- ==== Sys2Proof/Machine/ClearingOps.lean ====
section
/-! DEFINITION. The Clearing instructions of slot S5 (R362, R363, R366, R368, R372-R375). -/

namespace Sys2Proof.Machine

/-- Fields of an address word (R372). -/
def cwOp (a : Word) : Nat := fld a.toNat 28 3
def cwSize (a : Word) : Nat := if a.getLsbD 24 then 8 else 4
def cwOff (a : Word) : Nat := fld a.toNat 0 23

/-- SIZE and BASE of CLALLOC (R362), in bytes. -/
def claSize (w : Word) : Nat := 4096 * fld w.toNat 44 12
def claBase (w : Word) : Nat := 4096 * fld w.toNat 12 11

/-- The checks of R372 in order; `atomic` is CXCH. `go` takes the Clearing byte address and the size. -/
def clearingCheck (a : Word) (atomic : Bool) (go : Nat → Nat → State → State) (s : State) : State :=
  let w := (s.part s.core.act.part).clalloc
  if a.toNat / 2 ^ 31 ≠ 0 ∨ fld a.toNat 25 3 ≠ 0 ∨ a.getLsbD 23 = true ∨ cwOp a = 7 ∨ (atomic = false ∧ cwOp a ≠ 0) then
    trapAt 5 9 a s
  else if cwOff a % cwSize a ≠ 0 then trapAt 5 8 a s
  else if claSize w < cwOff a + cwSize a then trapAt 5 9 a s
  else go (claBase w + cwOff a) (cwSize a) s

/-- Entries that a station holds for a partition, those of beats not yet applied included (R363). -/
def stationLoad (s : State) (station part : Nat) : Nat :=
  (s.clr.queue.filter fun q => q.station == station && q.part == part).length +
    (((s.clr.beats ++ s.clr.resend).filter fun b => b.station == station && b.part == part).map fun b => b.entries.length).sum

/-- The slot waits for a place in its station's queue (R363). -/
def Ctx.waitsForQueue (c : Ctx) : Bool := c.st == .running && c.stage == some .queueFull

/-- Cores of the station's ply that wait for a place in the partition's queue: what frees is theirs first. -/
def queueWaiters (s : State) (station : Fin 12) (part : Fin 24) : Nat :=
  (s.cores.filter fun e => plyOf e.1.cl.val == station && e.2.act.part == part && e.2.act.waitsForQueue).length

/-- Sends one entry toward the station of the core's ply, or freezes the core on a full queue: it enters on the tick after its issue, or
on the tick that such a freeze ends (R363). `go` goes on with the entry's number. -/
def sendEntry (kind : Nat) (a : Word) (addr : Nat) (v : Word) (go : Nat → State → State) (s : State) : State :=
  let ply := plyOf s.key.cl.val
  let st := ply.val
  let part := s.core.act.part.val
  let late := s.core.act.waitsForQueue
  if 64 ≤ stationLoad s st part + (if late then 0 else queueWaiters s ply s.core.act.part) then
    stall (s.modCtx fun c => { c with stage := some .queueFull })
  else
    let id := s.newId
    let e : CEntry := { cl := s.key.cl.val, csl := s.key.sl.val, kind := kind, op := if kind = 2 then cwOp a else 0,
                        dbl := a.getLsbD 24, addr := addr, data := v, word := a, req := id, key := some s.key }
    let q : CQueued := { station := st, part := part, at_ := if late then s.time else s.time + 1, e := e }
    go id (addTok ⟨id, true, false, 0, true, false⟩ { s.drawn with clr := { s.clr with queue := s.clr.queue ++ [q] } })

/-- CST (R373). -/
def execCst (r : RegN) (s : State) : Res :=
  slotOp 5 r.g (fun s =>
    clearingCheck (s.src r.a) false (fun addr n s =>
      sendEntry 1 (s.src r.a) addr (BitVec.ofNat 64 ((s.src r.b).toNat % 2 ^ (8 * n))) (fun _ s => commit 5 s) s) s) s

/-- CXCH (R375). -/
def execCxch (r : RegF) (s : State) : Res :=
  slotOp 5 r.g (fun s =>
    clearingCheck (s.src r.a) true (fun addr n s =>
      sendEntry 2 (s.src r.a) addr (BitVec.ofNat 64 ((s.src r.b).toNat % 2 ^ (8 * n))) (fun id s =>
        commit 5 (addTok ⟨id, false, false, 0, true, false⟩ (fly
          { due := s.core.act.cyc + 14, cyc := s.core.act.cyc, slot := 5, latch := none,
            writes := if r.wb then [.s r.d 0] else [], flags := 0, need := some id, refresh := none } s))) s) s) s

/-- An entry of the core in view for some of these bytes that is not yet applied (R368). -/
def pendingOwn (s : State) (addr n : Nat) : Bool :=
  ((s.clr.queue.map fun q => q.e) ++ ((s.clr.beats ++ s.clr.resend).flatMap fun b => b.entries)).any fun e =>
    e.key == some s.key && decide (e.addr < addr + n) && decide (addr < e.addr + (if e.dbl then 8 else 4))

/-- CLD (R374). -/
def execCld (r : RegU) (s : State) : Res :=
  slotOp 5 r.g (fun s =>
    clearingCheck (s.src r.a) false (fun addr n s =>
      let p := plyOf s.key.cl.val
      if s.plies[p].stale || pendingOwn s addr n then stall s
      else if s.plies[p].bad then
        trapAt 5 0x13 (s.src r.a) { s with
          plies := s.plies.set p { s.plies[p] with stale := true, bad := false },
          clr := { s.clr with resyncReq := s.clr.resyncReq ++ [p.val] } }
      else landS 5 3 r.wb r.d (BitVec.ofNat 64 (ofBytes (s.plies[p].mirror.readN addr n))) s) s) s

end Sys2Proof.Machine
end

