-- ==== Sys2Proof/Machine/CopyBox.lean ====
section
/-! DEFINITION. Tensor layout records, copy descriptors and the units that a copy moves in loop order (R280-R285,
R291, R292, R494). -/

namespace Sys2Proof.Machine

/-- Signed number of `n` bits. -/
def sgnd (n x : Nat) : Int := sInt n x

/-- Element width of a format code (R51); 15 has none. -/
def Layout.w (l : Layout) : Nat := fmtWidth l.fmt

/-- The sixteen words of a record as a layout (R280). -/
def layoutOf (g : List Nat) : Layout :=
  let w (i : Nat) : Nat := g.getD i 0
  { base := BitVec.ofNat 64 (w 0), fmode := bitOf (w 1) 9, blk := bitOf (w 1) 8, fmt := fld (w 1) 4 4,
    space := bitOf (w 1) 3, rank := fld (w 1) 0 3, fill := w 2, scale := BitVec.ofNat 64 (w 3),
    spare := BitVec.ofNat 64 (w 4), stride := (List.range 5).map fun d => sgnd 64 (w (6 + 2 * d)),
    ext := (List.range 5).map fun d => w (7 + 2 * d) }

/-- SPA check of R244 on an address of a record. -/
def recSpa (s : State) (a : Word) : Bool := a.toNat / 2 ^ 32 == 0 && spaOk s a

/-- Validity of a record of words `g` (R280-R282). -/
def layoutValid (s : State) (g : List Nat) : Bool :=
  let l := layoutOf g
  let u : Nat := Nat.max 1 (l.w / 8)
  let st (d : Nat) : Int := l.stride.getD d 0
  g.getD 1 0 / 2 ^ 10 == 0 && g.getD 2 0 / 2 ^ 32 == 0 && g.getD 5 0 == 0 &&
  ((List.range 5).all fun d => g.getD (7 + 2 * d) 0 / 2 ^ 32 == 0) &&
  l.fmt != 15 && decide (1 ≤ l.rank) && decide (l.rank ≤ 5) && l.base.toNat % u == 0 &&
  (l.stride.all fun x => x % (u : Int) == 0) &&
  (if l.blk then
    (l.fmt == 3 || l.fmt == 4 || l.fmt == 5 || l.fmt == 6 || l.fmt == 7) &&
      ((List.range 4).all fun d => st (d + 1) % (4 * l.w : Nat) == 0) && (l.spare == 0 || l.fmt == 5)
   else l.scale == 0 && l.spare == 0) &&
  (!(l.w == 4 || l.blk) || st 0 == 0) &&
  (!l.space || (recSpa s l.base && recSpa s l.scale && recSpa s l.spare))

/-- The box of a descriptor's eight words with its two records (R283). -/
def boxOf (d src dst : List Nat) : Box :=
  let bytes : List Byte := d.flatMap (toBytes 8)
  let i32 (o : Nat) : Int := sgnd 32 (ofBytes ((bytes.drop o).take 4))
  let w1 := d.getD 1 0
  let w2 := d.getD 2 0
  { ext := [fld w1 0 16, fld w1 16 16, fld w1 32 16, fld w1 48 16, fld w2 0 16], idx := fld w2 42 22, op := fld w2 32 4,
    rtype := fld w2 30 2, hmode := bitOf w2 28, sc := (List.range 5).map fun k => i32 (0x18 + 4 * k),
    dc := (List.range 5).map fun k => i32 (0x2C + 4 * k), src := layoutOf src, dst := layoutOf dst }

/-- Format code of an RTYPE (R283). -/
def rtypeFmt (t : Nat) : Nat := if t = 0 then 9 else if t = 1 then 13 else if t = 2 then 0 else 2

/-- Start coordinates at or above a rank are 0 (R285). -/
def startsOk (rank : Nat) (st : List Int) : Bool := (st.drop rank).all fun x => x == 0

/-- Validity of a descriptor whose records are valid (R285, R292). -/
def boxValid (kind : CopyKind) (d : List Nat) (b : Box) : Bool :=
  let w0 := d.getD 0 0
  let w2 := d.getD 2 0
  let e0 := b.ext.getD 0 0
  let m : Nat := if b.src.blk then 32 else if b.src.w = 4 then 2 else 1
  w0 / 2 ^ 54 == 0 && fld w0 22 10 == 0 && fld w2 36 6 == 0 && !bitOf w2 29 &&
  b.src.w == b.dst.w && b.src.blk == b.dst.blk && (b.src.scale == 0) == (b.dst.scale == 0) &&
  (b.src.spare == 0) == (b.dst.spare == 0) && startsOk b.src.rank b.sc && startsOk b.dst.rank b.dc &&
  ((b.ext.drop (Nat.max b.src.rank b.dst.rank)).all fun e => decide (e ≤ 1)) &&
  e0 % m == 0 && b.sc.getD 0 0 % (m : Int) == 0 && b.dc.getD 0 0 % (m : Int) == 0 &&
  (match kind with
   | .move => b.op == 0 && b.idx == 0
   | .gather | .scatter =>
     b.op == 0 && b.idx % 4 == 0 && decide (b.idx + 4 * b.ext.getD 1 0 ≤ 0x300000) &&
       decide (2 ≤ (if kind = .gather then b.src.rank else b.dst.rank))
   | .reduce =>
     decide (1 ≤ b.op) && decide (b.op ≤ 5) && !b.dst.space && !b.src.blk && b.src.fmt == rtypeFmt b.rtype &&
       b.dst.fmt == rtypeFmt b.rtype && (decide (b.op < 4) || b.rtype != 3))

/-! ### Units in loop order (R284, R494) -/

/-- What one unit is: an element, a byte of two 4-bit elements, or a block's scale or spare byte. -/
inductive UnitKind where
  | elem | pair | scale | spare
  deriving DecidableEq, Repr

/-- Units of a box row: elements or pairs; with BLK each block's scale byte and spare byte as well. -/
def Box.rowElems (b : Box) : Nat := if b.src.w = 4 then b.ext.getD 0 0 / 2 else b.ext.getD 0 0
def Box.blocks (b : Box) : Nat := if b.src.blk then b.ext.getD 0 0 / 32 else 0
def Box.rowUnits (b : Box) : Nat := b.rowElems + b.blocks + (if b.src.spare = 0 then 0 else b.blocks)

/-- Rows and units of the box. -/
def Box.rows (b : Box) : Nat := b.ext.getD 1 0 * b.ext.getD 2 0 * b.ext.getD 3 0 * b.ext.getD 4 0
def Box.units (b : Box) : Nat := b.rows * b.rowUnits

/-- Kind of unit `n` and its first box index b0. A block's scale byte and spare byte stand before its 32 elements, so that what a stop's index
names, and all after it, has not moved (R284, R298; entry 94). -/
def Box.unit (b : Box) (n : Nat) : UnitKind × Nat :=
  let x := n % b.rowUnits
  let elem (x : Nat) : UnitKind × Nat := if b.src.w = 4 then (.pair, 2 * x) else (.elem, x)
  if b.blocks = 0 then elem x
  else
    let extra := if b.src.spare = 0 then 1 else 2
    let size := b.rowElems / b.blocks
    let i := x / (size + extra)
    let y := x % (size + extra)
    if extra ≤ y then elem (size * i + (y - extra)) else if y = 0 then (.scale, 32 * i) else (.spare, 32 * i)

/-- Box indices b0-b4 of unit `n`. -/
def Box.index (b : Box) (n : Nat) : List Nat :=
  let r := n / b.rowUnits
  let e (d : Nat) : Nat := b.ext.getD d 0
  [(b.unit n).2, r % e 1, r / e 1 % e 2, r / (e 1 * e 2) % e 3, r / (e 1 * e 2 * e 3)]

/-- Bytes that a unit counts for (R494). -/
def Box.bytes (b : Box) (n : Nat) : Nat :=
  match (b.unit n).1 with
  | .elem => b.src.w / 8
  | _ => 1

/-- Bytes of the whole box. -/
def Box.total (b : Box) : Nat :=
  b.rows * (b.rowElems * (if b.src.w = 4 then 1 else b.src.w / 8) + (b.rowUnits - b.rowElems))

/-- Coordinates of a side (R281, R284): `row` replaces dimension 1 where the copy is indexed (R292). -/
def coords (l : Layout) (start : List Int) (ix : List Nat) (row : Option Nat) : List Int :=
  (List.range l.rank).map fun d =>
    match row with
    | some r => if d = 1 then (r : Int) else start.getD d 0 + (ix.getD d 0 : Nat)
    | none => start.getD d 0 + (ix.getD d 0 : Nat)

/-- Dimensions 1 and above are in bounds. -/
def rowIn (l : Layout) (c : List Int) : Bool :=
  (c.zip l.ext).tail.all fun x => decide (0 ≤ x.1) && decide (x.1 < (x.2 : Int))

/-- Element i0 + k of dimension 0 is in bounds. -/
def colIn (l : Layout) (c : List Int) (k : Nat) : Bool :=
  decide (0 ≤ c.getD 0 0 + (k : Int)) && decide (c.getD 0 0 + (k : Int) < (l.ext.getD 0 0 : Nat))

/-- The parts of a unit in bounds on one side (R494): two nibbles of a pair, one part otherwise. -/
def sideIn (k : UnitKind) (l : Layout) (c : List Int) : List Bool :=
  match k with
  | .elem => [rowIn l c && colIn l c 0]
  | .pair => [rowIn l c && colIn l c 0, rowIn l c && colIn l c 1]
  | _ => [rowIn l c && (List.range 32).any (colIn l c)]

/-- Outcome of a part (R291): clipped, moved or filled. -/
def partOutcome (skip : Bool) (src dst : Bool) : Option Bool :=
  if !dst then none else if src then some true else if skip then none else some false

/-- Byte offset of an element's unit from the array it lies in (R281). -/
def unitOff (k : UnitKind) (l : Layout) (c : List Int) : Int :=
  let row : Int := ((c.zip l.stride).tail.map fun x => x.1 * x.2).sum
  let i0 := c.getD 0 0
  match k with
  | .elem => row + i0 * (if l.blk then ((l.w / 8 : Nat) : Int) else l.stride.getD 0 0)
  | .pair => row + i0 / 2
  | _ => row / (4 * l.w : Nat) + i0 / 32

/-- A place of a unit. -/
inductive Place where
  | gva (g : Word)
  | spm (role : Nat) (off : Int)
  deriving DecidableEq, Repr

/-- Place of a unit on one side. -/
def unitPlace (k : UnitKind) (l : Layout) (c : List Int) : Place :=
  let arr : Word := match k with
    | .scale => l.scale
    | .spare => l.spare
    | _ => l.base
  if l.space then .spm (fld arr.toNat 24 8) ((fld arr.toNat 0 22 : Nat) + unitOff k l c)
  else .gva (arr + BitVec.ofInt 64 (unitOff k l c))

/-- Address of a place as a fault record holds it (R295). -/
def Place.word : Place → Word
  | .gva g => g
  | .spm r o => BitVec.ofNat 64 (r * 2 ^ 24) + BitVec.ofNat 64 ((o % (2 ^ 22 : Nat)).toNat)

/-- One unit worked out: its kind, its parts' outcomes, its places and its bytes. -/
structure Work where
  kind : UnitKind
  parts : List (Option Bool)
  src : Place
  dst : Place
  bytes : Nat
  deriving DecidableEq, Repr

/-- Unit `n` of a box with the index entry of its row (R284, R291, R292). -/
def Box.work (b : Box) (kind : CopyKind) (row : Option Nat) (n : Nat) : Work :=
  let k := (b.unit n).1
  let ix := b.index n
  let cs := coords b.src b.sc ix (if kind = .gather then row else none)
  let cd := coords b.dst b.dc ix (if kind = .scatter then row else none)
  { kind := k, parts := (sideIn k b.src cs).zipWith (partOutcome b.src.fmode) (sideIn k b.dst cd),
    src := unitPlace k b.src cs, dst := unitPlace k b.dst cd, bytes := b.bytes n }

/-- Every part is clipped. -/
def Work.clipped (w : Work) : Bool := w.parts.all fun p => p.isNone
/-- Some part is moved. -/
def Work.moves (w : Work) : Bool := w.parts.any fun p => p == some true

/-- The value written where the source gave `v` (R291). -/
def Work.value (w : Work) (b : Box) (v : Nat) : Nat :=
  match w.kind, w.parts with
  | .pair, [p0, p1] =>
    (if p0 = some true then v % 16 else b.src.fill % 16) + 16 * (if p1 = some true then v / 16 % 16 else b.src.fill % 16)
  | .elem, _ => if w.moves then v else b.src.fill % 2 ^ b.src.w
  | .scale, _ => if w.moves then v else 0x7F
  | _, _ => if w.moves then v else 0

/-- Write mask of a pair whose nibbles differ; empty where the unit is written whole (R494). -/
def Work.mask (w : Work) : List Byte :=
  match w.parts with
  | [some _, none] => [0x0F]
  | [none, some _] => [0xF0]
  | _ => []

/-- Box row b1 of unit `n`. -/
def Box.rowOf (b : Box) (n : Nat) : Nat := (b.index n).getD 1 0

/-- Scratchpad offset of the index entry of unit `n`'s row. -/
def Box.indexAt (b : Box) (n : Nat) : Nat := b.idx + 4 * b.rowOf n

/-- COPYG and COPYS read an index list (R292). -/
def CopyKind.indexed : CopyKind → Bool
  | .gather | .scatter => true
  | _ => false

/-- The index entry that a copy reads before row b1 (R292). -/
def Core.indexEntry (c : Core) (kind : CopyKind) (b : Box) (n : Nat) : Option Nat :=
  if kind.indexed then some (ofBytes (c.spRead (b.indexAt n) 4)) else none

/-- That entry holds an uncorrectable error (R294). -/
def Core.indexBad (c : Core) (kind : CopyKind) (b : Box) (n : Nat) : Bool := kind.indexed && c.badAt (b.indexAt n) 4

/-- Box rows whose index entry holds an uncorrectable error. -/
def Core.badRows (c : Core) (kind : CopyKind) (b : Box) : List Nat :=
  if kind.indexed then (List.range (b.ext.getD 1 0)).filter fun i => c.badAt (b.idx + 4 * i) 4 else []

/-- The clip credit (R291, R494): the bytes of every unit that is clipped, but for the rows `late`, whose outcome is not known. -/
def Core.clipCredit (c : Core) (kind : CopyKind) (b : Box) (late : List Nat) : Nat :=
  ((List.range b.units).map fun n =>
    let w := b.work kind (c.indexEntry kind b n) n
    if w.clipped && !late.contains (b.rowOf n) then w.bytes else 0).sum

/-- REMAIN of a stop with reason 7 (R295), from the descriptor's and the source record's words. -/
def remainOf (d src : List Nat) : Nat :=
  let l := layoutOf src
  let w1 := d.getD 1 0
  let n := fld w1 0 16 * fld w1 16 16 * fld w1 32 16 * fld w1 48 16 * fld (d.getD 2 0) 0 16
  if l.fmt = 15 then 0
  else
    let x := n * l.w / 8 + (if l.blk then n / 32 + (if l.spare = 0 then 0 else n / 32) else 0)
    Nat.min x (2 ^ 32 - 1)

end Sys2Proof.Machine
end

