-- ==== Sys2Proof/Machine/Fences.lean ====
section
/-! DEFINITION. The order that QFENCE sets between the seven engine queues of a core (R311, R312). -/

namespace Sys2Proof.Machine

/-- Operations of a context that are not complete: queue and issue number (R311). Queue 4 is the term engine, 5 the
port engine, 6 the Clearing. The writes of a copy that its reads have completed stand ahead until they are acknowledged, since what is behind
sees them (R287, R312). A save takes the waiting copies out of the queues: they go into the frame (R83, R313, entry 46). -/
def pendingOps (s : State) : List (Nat × Nat) :=
  let c := s.core
  let mine (e : CEntry) : Bool := e.key == some s.key
  let saved (x : Copy) : Bool := x.st == 0 && match s.gang? c.act.gid with
    | some g => g.saving
    | none => false
  ((c.copies.filter fun x => !saved x).map fun x => (x.q.val, x.id)) ++
  ((s.reqs.filter fun r => r.key == s.key).filterMap fun r => r.copyOf.map fun c => (r.queue.val, c)) ++
  (c.tile.ops.map fun o => (4, o.seq)) ++
  (c.port.ops.map fun o => (5, o.1)) ++
  ((s.clr.queue.filter fun q => mine q.e).map fun q => (6, q.e.req)) ++
  (((s.clr.beats ++ s.clr.resend).flatMap fun b => b.entries.filter mine).map fun e => (6, e.req))

/-- What was not complete at the turn of the tick stays ahead until the next (R312). -/
def notedOps (s : State) : State := s.modCore fun c => { c with pend := if c.fences = [] then [] else pendingOps s }

/-- Operations ahead of a fence, on this tick, which are not complete or have completed within it. -/
def Fence.aheadOf (f : Fence) (s : State) : Bool :=
  (s.core.pend ++ pendingOps s).any fun o => f.qm.getLsbD o.1 && decide (o.2 < f.seq)

/-- An operation of queue `q` issued as number `seq` may not begin yet (R312). -/
def fenceBlocks (s : State) (q seq : Nat) : Bool :=
  s.core.fences.any fun f => f.qm.getLsbD q && decide (f.seq < seq) && f.aheadOf s

/-- Fences with nothing left ahead of them are forgotten. -/
def dropFences (s : State) : State := s.modCore fun c => { c with fences := c.fences.filter fun f => f.aheadOf s }

/-- The operations of the term engine ahead of a QFENCE that names it (R198). -/
def Tile.fenced (n : Nat) (t : Tile) : Tile :=
  { t with ops := t.ops.map fun o => { o with fence := some (o.fence.getD n) },
           past := t.past.map fun p => { p with fence := some (p.fence.getD n) } }

/-- QFENCE (R330): it never freezes the core. -/
def execQfence (r : QmkF) (s : State) : Res :=
  slotOp 5 r.g (fun s =>
    commit 5 ((dropFences s).drawn.modCore fun c =>
      { c with fences := c.fences ++ [⟨r.qm, s.newId⟩], tile := if r.qm.getLsbD 4 then c.tile.fenced s.newId else c.tile })) s

end Sys2Proof.Machine
end

