-- ==== Sys2Proof/Machine/Measure.lean ====
section
/-! DEFINITION. The slot plan as the stations see it and the configuration measurement of a partition (R358-R361,
R436). -/

namespace Sys2Proof.Machine

/-- A slot plan entry: station and partition (R358). -/
def planStn (e : BitVec 13) : Nat := e.toNat % 16
def planPart (e : BitVec 13) : Nat := e.toNat / 256

/-- The three fixed slots of column 0 (R360). -/
def planFixed (c s : Nat) : Bool := c == 0 && (s == 0 || s == 16 || s == 32)

/-- The entry of column `c`, slot `s`: what was written, or the plan of bring-up step 5 (R360). -/
def planEntry (plan : List (Nat × BitVec 13)) (c s : Nat) : BitVec 13 :=
  if planFixed c s then BitVec.ofNat 13 (31 * 256 + 12)
  else lookupD plan (64 * c + s) (BitVec.ofNat 13 (31 * 256 + (if c = 0 then 15 else s % 13)))

/-- The slot of the present tick (R14). -/
def State.slot (s : State) : Nat := s.time % 64

/-- Slots of a frame in which columns 1-14 carry a station's traffic of a partition (R495). -/
def State.legSlots (s : State) (stn part : Nat) : List Nat :=
  (List.range 64).filter fun t => (List.range 14).any fun c =>
    planStn (planEntry s.clr.active (c + 1) t) == stn && planPart (planEntry s.clr.active (c + 1) t) == part

/-- The longest run of ticks between two consecutive slots, with the wrap to the next frame (R495). -/
def longestGap (ts : List Nat) : Nat := ((ts.zip (ts.tail ++ [ts.headD 0 + 64])).map fun x => x.2 - x.1).foldl Nat.max 0

/-- Slots of a frame in which column `c` is a station's for a partition (R358, R361). -/
def State.colSlots (s : State) (c stn part : Nat) : List Nat :=
  (List.range 64).filter fun t => planStn (planEntry s.clr.active c t) == stn && planPart (planEntry s.clr.active c t) == part

/-- The plan gives every station of `stns` slots for the partition on columns 1-14: without them its traffic waits (R361). -/
def State.planned (s : State) (stns : List Nat) (part : Nat) : Bool := stns.all fun x => s.legSlots x part != []

/-- The tick after `t` in which the station next owns column `c` for the partition. -/
def State.nextOwned (s : State) (c stn part t : Nat) : Nat :=
  (((List.range 64).map fun i => t + 1 + i).find? fun u => (s.colSlots c stn part).contains (u % 64)).getD (t + 64)

/-- The tick in which a beat of column `c` that fails its CRC so often is sent for the last time (R356). -/
def State.resent (s : State) (c stn part : Nat) : Nat → Nat → Nat
  | 0, t => t
  | k + 1, t => s.resent c stn part k (s.nextOwned c stn part t)

/-- The slots in the `n` ticks from `t` on that are a station's for a partition: column and tick. -/
def State.chances (s : State) (stn part t n : Nat) : List (Nat × Nat) :=
  (List.range n).flatMap fun i => (((List.range 14).map (· + 1)).filter fun c => (s.colSlots c stn part).contains ((t + i) % 64)).map
    fun c => (c, t + i)

/-- Ticks by which beats that fail their CRC delay a message of the station whose time of arrival is stated: its column is free, and it is
sent again in that column's next slots (R356, entry 86). -/
def State.late (s : State) (stn part : Nat) : Nat :=
  let cs := s.chances stn part s.time 64
  match cs[s.choose cs.length]? with
  | none => 0
  | some (c, _) => s.resent c stn part (Config.retries (s.seed + 32)) s.time - s.time

/-- Sends scheduler traffic of a partition from a station: it leaves in one of its slots of the next G ticks, and is on its way for at most 6;
a beat that fails its CRC is sent again in the column's next slot. Without a slot it waits (R356, R495, entry 86). -/
def State.leg (s : State) (stn part : Nat) (e : Instr) : State :=
  let cs := s.chances stn part (s.time + 1) (longestGap (s.legSlots stn part))
  match (if s.legSlots stn part = [] then none else cs[s.choose cs.length]?) with
  | none => s.at (s.time + 1) e
  | some (c, t) => ({ s with draws := s.draws + 3 } : State).at
      (s.resent c stn part (Config.retries (s.seed + 32)) t + Config.pick (s.seed + 64) % 7) e

/-- A slice holds the line of a physical address (R220). -/
def State.lineHeld (s : State) (pa : Nat) : Bool := s.lines.any fun l => l.1 == pa / 128 && !l.2.again

/-- The stations whose slots an access from ply `ply` to a line needs: both ends where the home slice stands on another ply, and those of
its ply and of the root where the slice must fill the line from LPDDR 5X (R8, R361). -/
def State.stations (s : State) (ply : Nat) (part : Fin 24) (va pa : Nat) : List Nat :=
  let h := slicePly (s.home part va)
  (if h = ply then [] else [ply, h]) ++ if s.lineHeld pa then [] else [h, 12]

/-- The plan gives the partition of the core in view the slots that its access to a line needs (R361, entry 8). -/
def State.wayOpen (s : State) (va pa : Nat) : Bool :=
  s.planned (s.stations (plyOf s.key.cl.val).val s.core.act.part va pa) s.core.act.part.val

/-- PARTOWN as a register (R425). -/
def Own.word (o : Own) : Word := BitVec.ofNat 64 (o.ch.toNat * 2 ^ 48 + o.slc.toNat * 2 ^ 24 + o.cl.toNat)

/-- The bytes that the configuration measurement covers, in its order (R436). -/
def configBytes (pn : Fin 24) (s : State) : List Byte :=
  let p := s.part pn
  let plan : List Nat := (List.range 960).filterMap fun i =>
    let e := planEntry s.clr.active (i / 64) (i % 64)
    if planPart e = pn.val then some e.toNat else none
  ([p.active.word.toNat, ((p.clpend.map fun c => c.1).getD p.clalloc).toNat, p.pullctl.toNat, p.reqctl.toNat, p.meshctl.toNat, p.partstid.toNat] ++
    ((List.range 56).map fun i => lane 64 p.peerwin i) ++ [p.schctl.toNat] ++ plan).flatMap (toBytes 8)

/-- The measurement is taken again and the generation rises by 1 (R436). -/
def measured (pn : Fin 24) (s : State) : State :=
  s.modPart pn fun p => { p with measure := Config.shake256 (configBytes pn s), gen := p.gen + 1 }

end Sys2Proof.Machine
end

