-- ==== Sys2Proof/Machine/Ring.lean ====
section
/-! DEFINITION. The rings that the device writes in partition memory: the fault queue (R269-R271) and the sample ring
(R442-R444). -/

namespace Sys2Proof.Machine

/-- Sends MSI-X interrupt `vec` of the partition's VF (R431, R422). -/
def msix (p : Fin 24) (vec : Nat) (s : State) : State := { s with out := s.out ++ [.msix (p.val + 1) vec] }

/-- Changes the record that a block id names, where it holds that id. -/
def Port.modBlock (p : Port) (block : BitVec 32) (f : Block → Block) : Port :=
  { p with blocks := p.blocks.map fun b => if b.idx = block.toNat % 256 ∧ b.gen = block.toNat / 256 then f b else b }

def Port.block? (p : Port) (block : BitVec 32) : Option Block :=
  p.blocks.find? fun b => b.idx == block.toNat % 256 && b.gen == block.toNat / 256

/-- The block interrupt of a reclaimed block (R382, R431). -/
def blockReclaimed (pn : Fin 24) (block : BitVec 32) (s : State) : State :=
  let cnt := fld (s.part pn).blkst.toNat 0 16
  let s1 := s.modPart pn fun p => { p with blkst := BitVec.ofNat 64 (block.toNat * 2 ^ 32 + Nat.min 0xFFFF (cnt + 1)) }
  let q := s1.part pn
  if bitOf q.irqcfg.toNat 15 then msix pn (fld q.irqcfg.toNat 8 6) s1 else s1

/-- The overdue blocks whose trap END discards become RECLAIMED and raise the block interrupt instead (R102, R382). -/
def blocksEnd (s : State) : State :=
  s.core.act.asyncQ.foldl (fun s w =>
    let block : BitVec 32 := w.setWidth 32
    match s.core.port.block? block with
    | some b =>
      if b.st = 4 then
        blockReclaimed s.core.act.part block (s.modCore fun c => { c with port := c.port.modBlock block fun x => { x with st := 6 } })
      else s
    | none => s) s

/-- Header word of a fault record (R269); `n` is the record number, `log` the ring size. -/
def faultHeader (r : FaultRec) (n log merged : Nat) : Nat :=
  merged * 2 ^ 16 + (n / 2 ^ log + 1) % 2 * 2 ^ 15 + r.slot % 8 * 2 ^ 8 + r.cause % 256

/-- Bytes 0x08-0x3F of a fault record (R269). -/
def faultBody (r : FaultRec) : List Byte :=
  toBytes 8 r.ctxid.toNat ++ toBytes 8 r.time ++ toBytes 8 r.pos.toNat ++ toBytes 8 r.einfo.toNat ++
    toBytes 8 r.gva.toNat ++ toBytes 8 r.detail0.toNat ++ toBytes 8 r.detail1.toNat

/-- GVA of record number `n` (R270). -/
def faultGva (p : Part) (n : Nat) : Word := p.fqbase + BitVec.ofNat 64 (64 * (n % 2 ^ p.fqlog))

/-- Whether a record merges into the last record written (R271). -/
def mergesInto (p : Part) (r : FaultRec) : Bool :=
  match p.fqlast with
  | some l => !r.stopped && decide (p.fqtail < p.fqhead) && l.cause == r.cause && l.ctxid == r.ctxid &&
      l.gva.toNat / 2 ^ 16 == r.gva.toNat / 2 ^ 16
  | none => false

/-- LOST rises by 1 (R271). -/
def loseFault (pn : Fin 24) (s : State) : State := s.modPart pn fun p => { p with fqlost := p.fqlost + 1 }

/-- Tries to write one record: true when it is dealt with, false when it must wait (R270, R271). -/
def putFault (pn : Fin 24) (r : FaultRec) (s : State) : State × Bool :=
  let p := s.part pn
  if mergesInto p r then
    let m := Nat.min (p.fqmerged + 1) 0xFFFF
    match s.gvaWrite pn (faultGva p (p.fqhead - 1)) (toBytes 8 (faultHeader (p.fqlast.getD r) (p.fqhead - 1) p.fqlog m)) with
    | some s1 => (s1.modPart pn fun p => { p with fqmerged := m }, true)
    | none => (loseFault pn s, true)
  else if p.fqhead - p.fqtail = 2 ^ p.fqlog then if r.stopped then (s, false) else (loseFault pn s, true)
  else
    let g := faultGva p p.fqhead
    match (s.gvaWrite pn (g + 8) (faultBody r)).bind fun s1 =>
        s1.gvaWrite pn g (toBytes 8 (faultHeader r p.fqhead p.fqlog 0)) with
    | none => if r.stopped then (s.modPart pn fun p => { p with fqblocked := true }, false) else (loseFault pn s, true)
    | some s1 =>
      let s2 := s1.modPart pn fun p => { p with fqhead := p.fqhead + 1, fqlast := some r, fqmerged := 0 }
      (if p.fqhead = p.fqtail ∧ bitOf p.irqcfg.toNat 7 then msix pn (fld p.irqcfg.toNat 0 6) s2 else s2, true)

/-- The record would be written to an entry of the ring that meets a STATE 2 entry: its writer waits (R266). One that a full ring turns away
is not written. -/
def ringWaits (pn : Fin 24) (r : FaultRec) (s : State) : Bool :=
  let p := s.part pn
  if mergesInto p r then s.gvaWaits pn (faultGva p (p.fqhead - 1))
  else p.fqhead - p.fqtail != 2 ^ p.fqlog && s.gvaWaits pn (faultGva p p.fqhead)

/-- Writes the records in line, in order of occurrence; those that must wait stay (R271). One whose walk waits keeps those behind it in line,
and is tried again after 256 ticks (R266). -/
def putFaults (pn : Fin 24) : List FaultRec → Bool → State → State
  | [], _, s => s
  | r :: rs, waiting, s =>
    if waiting && r.stopped then
      putFaults pn rs true (s.modPart pn fun p => { p with fqwait := p.fqwait ++ [r] })
    else if ringWaits pn r s then s.drawn.modPart pn fun p => { p with fqwait := p.fqwait ++ r :: rs, fqretry := s.time + 256 }
    else
      match putFault pn r s with
      | (s1, true) => putFaults pn rs waiting s1
      | (s1, false) => putFaults pn rs true (s1.modPart pn fun p => { p with fqwait := p.fqwait ++ [r] })

/-- Deals with the records of a partition, at each tick. A stopped-source record whose ring does not translate is
tried again only when FQBASE, FQSIZE or MAPINVC is written (R271). -/
def flushFaults (pn : Fin 24) (s : State) : State :=
  let p := s.part pn
  if p.fqwait = [] ∨ s.time < p.fqretry then s
  else putFaults pn p.fqwait p.fqblocked (s.modPart pn fun p => { p with fqwait := [] })

/-- Header word of a sample record (R443). -/
def sampleHeader (typ len lost : Nat) : Nat := 0xA5 * 2 ^ 56 + typ * 2 ^ 48 + len * 2 ^ 40 + Nat.min lost 0xFFFF * 2 ^ 24

/-- Writes words at successive GVAs, none where one does not translate. -/
def putWords (pn : Fin 24) : List (Word × Nat) → State → Option State
  | [], s => some s
  | (g, x) :: rest, s => (s.gvaWrite pn g (toBytes 8 x)).bind (putWords pn rest)

/-- Writes one record of type `typ` to the sample ring, with its pad, or counts it as lost (R444); none while a word of it meets a STATE 2
entry (R266). -/
def trySample (pn : Fin 24) (typ : Nat) (words : List Nat) (s : State) : Option State :=
  let p := s.part pn
  let cap := 2 ^ p.smplog
  let len := words.length + 1
  let at0 := p.smphead % cap
  let pad := if cap < at0 + len then cap - at0 else 0
  let gva (i : Nat) : Word := p.smpbase + BitVec.ofNat 64 (8 * ((p.smphead + i) % cap))
  let lose := s.modPart pn fun p => { p with smplost := p.smplost + 1 }
  if cap - (p.smphead - p.smptail) < pad + len then some lose
  else
    let padW := if pad = 0 then [] else [(gva 0, sampleHeader 0 pad 0)]
    let body := words.mapIdx fun i x => (gva (pad + 1 + i), x)
    if (padW ++ body ++ [(gva pad, 0)]).any fun w => s.gvaWaits pn w.1 then none
    else some <| match putWords pn (padW ++ body ++ [(gva pad, sampleHeader typ len p.smplost)]) s with
    | none => lose
    | some s1 => s1.modPart pn fun p => { p with smphead := p.smphead + pad + len, smplost := 0 }

/-- Writes a sample record, or puts it in line behind those that wait for a walk. -/
def putSample (pn : Fin 24) (typ : Nat) (words : List Nat) (s : State) : State :=
  let wait (s : State) : State := s.modPart pn fun p => { p with smpwait := p.smpwait ++ [(typ, words)] }
  if (s.part pn).smpwait ≠ [] then wait s
  else (trySample pn typ words s).getD (wait (s.drawn.modPart pn fun p => { p with smpretry := s.time + 256 }))

/-- The sample records in line are tried again, every 256 ticks (R266). -/
def flushSamples (pn : Fin 24) (s : State) : State :=
  let p := s.part pn
  if p.smpwait = [] ∨ s.time < p.smpretry then s
  else p.smpwait.foldl (fun s w => putSample pn w.1 w.2 s) (s.modPart pn fun p => { p with smpwait := [] })

end Sys2Proof.Machine
end

