-- ==== Sys2Proof/Machine/CopyEvents.lean ====
section
/-! DEFINITION. The transfer engine's own steps: release, reads with the writes they lead to, acknowledgements with
their credits, stops, RESUME and ABORT (R286-R298, R448). -/

namespace Sys2Proof.Machine

/-- Changes the copy `id` of the core in view. -/
def State.modCopy (s : State) (id : Nat) (f : Copy → Copy) : State :=
  s.modCore fun c => { c with copies := c.copies.map fun x => if x.id = id then f x else x }

def State.copy? (s : State) (id : Nat) : Option Copy := s.core.copies.find? fun x => x.id == id

/-- Copies of queue `q` in the order in which they joined it. -/
def Core.queue (c : Core) (q : Fin 4) : List Copy :=
  (c.copies.filter fun x => x.q == q && x.st != 0).sortBy fun a b => decide (a.joined ≤ b.joined)

/-- The agent's fields of a reason-8 record of a copy (R296). -/
def copyCreditor (s : State) (c : Copy) : Creditor :=
  { ctxid := s.core.act.id s.key, einfo := BitVec.ofNat 64 (c.desc * 2 ^ 32 + c.no), gva := 0, detail0 := 0,
    detail1 := c.q.val * 2 ^ 10 + c.handle.val }

/-- Everything that the copy issues has been issued. -/
def Copy.allIssued (c : Copy) : Bool :=
  match c.box with
  | some b => decide (b.units ≤ c.next) && c.st != 1
  | none => c.st == 4

/-- Every byte of its box has been credited. -/
def Copy.credited (c : Copy) : Bool :=
  (c.st == 2 || c.st == 4) && c.held == [] && c.remain == 0 && c.clip == 0 && !c.again

/-- Complete (R287). A COPYR waits for the reply to its last step as well, which may stop it (entry 40). -/
def Copy.isComplete (c : Copy) : Bool := c.credited && (c.kind != .reduce || c.unacked == 0)

/-- Applies the credits that the copy holds. -/
def applyHeld (c : Copy) (s : State) : State :=
  let s1 := (c.held.foldl (fun s n => creditHandle c.handle n (!c.hmode) (copyCreditor s c) s) s).modCopy c.id fun x =>
    { x with held := [], remain := x.remain - c.held.sum }
  if c.held = [] then s1 else s1.modCore fun k => { k with creditAt := k.creditAt.set c.q s.time }

/-- Applies the credits of a queue in order, and removes the copies that are complete (R287). -/
def drainQueue : List Nat → State → State
  | [], s => s
  | id :: rest, s =>
    match s.copy? id with
    | none => drainQueue rest s
    | some c =>
      let s1 := applyHeld c s
      match s1.copy? id with
      | some c1 =>
        if c1.isComplete then drainQueue rest (s1.modCore fun k => { k with copies := k.copies.filter fun x => x.id != id })
        else if c1.credited then drainQueue rest s1
        else s1
      | none => drainQueue rest s1

def drainCredits (q : Fin 4) (s : State) : State := drainQueue ((s.core.queue q).map fun c => c.id) s

/-- Forms a credit of `n` bytes of copy `id`. -/
def copyCredit (id n : Nat) (s : State) : State :=
  match s.copy? id with
  | none => s
  | some c => drainCredits c.q (s.modCopy id fun x => { x with held := if n = 0 then x.held else x.held ++ [n] })

/-! ### Stops (R294, R295) -/

/-- REMAIN (R295): the bytes from the present unit on, without those that the clip credit has given; what has been issued is
credited as it completes (R294). -/
def Core.copyRemain (k : Core) (c : Copy) : Nat :=
  match c.box with
  | none => c.remain
  | some b =>
    (((List.range b.units).drop c.next).map fun n =>
      let w := b.work c.kind (k.indexEntry c.kind b n) n
      if (w.clipped && !c.hmode && !c.late.contains (b.rowOf n)) || (c.again && n == c.next) then 0 else w.bytes).sum

/-- Reason of a copy's stop where an access of its engine does not translate or meets an error (R294). -/
def copyReason (r : Nat) : Nat := if r = errorReason then 6 else r

/-- Stops a copy at its present unit and writes the record. -/
def copyStop (id reason : Nat) (gva : Word) (ix : List Nat) (s : State) : State :=
  match s.copy? id with
  | none => s
  | some c =>
    let d (k : Nat) : Nat := ix.getD k 0
    pushRecord s.core.act.part
      { cause := 0x44, slot := 5, ctxid := s.core.act.id s.key, time := s.time, pos := 0,
        einfo := BitVec.ofNat 64 (c.desc * 2 ^ 32 + c.no), gva := gva,
        detail0 := BitVec.ofNat 64 (d 3 * 2 ^ 48 + d 2 * 2 ^ 32 + d 1 * 2 ^ 16 + d 0),
        detail1 := BitVec.ofNat 64 (d 4 * 2 ^ 48 + Nat.min (s.core.copyRemain c) (2 ^ 32 - 1) * 2 ^ 16 + reason * 2 ^ 12 +
          c.q.val * 2 ^ 10 + c.handle.val), stopped := true }
      (s.modCopy id fun x => { x with st := 3, reason := reason })

/-- Stops a copy at the unit it has come to. -/
def copyStopHere (id reason : Nat) (gva : Word) (s : State) : State :=
  match s.copy? id with
  | some c => copyStop id reason gva (match c.box with | some b => b.index c.next | none => []) s
  | none => s

/-! ### Release (R286) -/

/-- The order of release within one tick: t, then issue order. -/
def releaseOrder (cs : List Copy) : List Copy :=
  cs.sortBy fun a b => decide (a.rel < b.rel) || (a.rel == b.rel && decide (a.id ≤ b.id))

/-- The hold-time option stops release while the context is FROZEN (R448), and a save stops it for good (R83). -/
def holdsRelease (s : State) : Bool :=
  (s.core.act.st == .frozen && s.core.regsx.dbgctl.getLsbD 4) ||
    match s.gang? s.core.act.gid with
    | some g => g.saving
    | none => false

/-- The commands that fall due join the tails of their queues (R286). -/
def joinDue (s : State) : State :=
  (releaseOrder (s.core.copies.filter fun c => c.st == 0 && decide (Nat.max c.rel (c.u + 1) ≤ s.time))).foldl
    (fun s c => (s.modCopy c.id fun x => { x with st := 1, joined := s.newId }).drawn) s

/-- The words of an own-scratchpad record. -/
def Core.words (c : Core) (a n : Nat) : List Nat := (List.range n).map fun i => c.word (a + 8 * i)

/-- Touches of a release: the descriptor, both records where they lie in the scratchpad, and the index list. -/
def releaseTouch (s : State) (c : Copy) : State × Touch :=
  match touch c.desc 64 s with
  | (s1, .ok) =>
    let d := s1.core.words c.desc 8
    let recOk (a : Nat) : Bool := a % 128 == 0 && decide (a + 128 ≤ 0x300000)
    let src := fld (d.getD 0 0) 0 22
    let dst := fld (d.getD 0 0) 32 22
    match touchList ((if recOk src then gransOf src 128 else []) ++ (if recOk dst then gransOf dst 128 else [])) s1 with
    | (s2, .ok) =>
      let idx := fld (d.getD 2 0) 42 22
      let n := 4 * fld (d.getD 1 0) 16 16
      if (c.kind = .gather ∨ c.kind = .scatter) ∧ idx + n ≤ 0x300000 then touch idx n s2 else (s2, .ok)
    | r => r
  | r => r

/-- The engine reads the descriptor and both records, judges them, and forms the clip credit (R286, R291). A copy of an
empty box is complete with it (R284). -/
def readDescriptor (id : Nat) (s : State) : State :=
  match s.copy? id with
  | none => s
  | some c =>
    match releaseTouch s c with
    | (s1, .wait) => s1
    | (s1, .fault g r _) => copyStop id (copyReason r) g [] s1
    | (s1, .ok) =>
      let d := s1.core.words c.desc 8
      let sl := fld (d.getD 0 0) 0 22
      let dl := fld (d.getD 0 0) 32 22
      let inPad (a : Nat) : Bool := a % 128 == 0 && decide (a + 128 ≤ 0x300000)
      let src := if inPad sl then s1.core.words sl 16 else []
      let dst := if inPad dl then s1.core.words dl 16 else []
      let b := boxOf d src dst
      let h : Fin 256 := Fin.ofNat 256 (fld (d.getD 2 0) 16 8)
      let s1 := s1.modCopy id fun x => { x with handle := h, hmode := bitOf (d.getD 2 0) 28 }
      let bad := s1.core.badAt c.desc 64 || (inPad sl && s1.core.badAt sl 128) || (inPad dl && s1.core.badAt dl 128)
      if bad then copyStop id 6 (BitVec.ofNat 64 c.desc) [] s1
      else if inPad sl && inPad dl && layoutValid s1 src && layoutValid s1 dst && boxValid c.kind d b then
        let late := if b.hmode then [] else s1.core.badRows c.kind b
        let clip := if b.hmode then 0 else s1.core.clipCredit c.kind b late
        if b.total = 0 then s1.modCore fun k => { k with copies := k.copies.filter fun x => x.id != id }
        else
          drainCredits c.q (s1.modCopy id fun x =>
            { x with st := 2, box := some b, remain := b.total, next := 0, held := [], clip := clip, late := late })
      else
        copyStop id 7 0 [] (s1.modCopy id fun x =>
          { x with box := none, remain := if inPad sl then remainOf d src else 0 })

/-- The copy of queue `q` whose clip credit is due: every copy ahead has all of its credits, the last of them on an earlier tick
(R287, R291). -/
def Core.clipDue (now : Nat) (c : Core) (q : Fin 4) : Option Copy :=
  if now ≤ c.creditAt[q] then none
  else match (c.queue q).find? fun x => !x.credited with
    | some x => if x.clip ≠ 0 ∧ x.held = [] then some x else none
    | none => none

/-- Credits of this tick in queues up to `q` that are still to come: acknowledgements, and the reads of the queue that is served (R279). -/
def creditAhead (s : State) (q : Fin 4) : Bool :=
  s.agenda.any fun e => match e with
    | .copyReadReturn k p => k == s.key && decide (p ≤ q)
    | .copyWriteAck k id => k == s.key && s.reqs.any fun r => r.id == id && r.copyOf.isSome && decide (r.queue ≤ q)
    | _ => false

/-- Applies the clip credit that is due in the lowest queue, in its queue's place among the credits of the tick (R279, R291). -/
def applyClip (s : State) : State :=
  match (List.finRange 4).findSome? fun q => if creditAhead s q then none else s.core.clipDue s.time q with
  | none => s
  | some c => drainCredits c.q (s.modCopy c.id fun x => { x with held := [c.clip], clip := 0 })

/-- One tick of release, up to the first clip credit. A hold stops commands that wait for their TIME, and not those that have been released
(R448). -/
def copyRelease (s : State) : State :=
  let s1 := if holdsRelease s then s else joinDue s
  applyClip ((releaseOrder (s1.core.copies.filter fun c => c.st == 1)).foldl (fun s c => readDescriptor c.id s) s1)

/-- Some command may release, waits for its descriptor, or has a clip credit to come. -/
def copyReleaseDue (s : State) : Bool :=
  s.core.copies.any fun c => c.clip != 0 || c.st == 1 || (!holdsRelease s && c.st == 0 && decide (Nat.max c.rel (c.u + 1) ≤ s.time))

/-- COPY_RELEASE (R286). -/
def execCopyRelease (k : CoreKey) (s : State) : Res := .next (settle s (copyRelease (s.focus k)))

/-! ### Reading and writing (R287-R293) -/

/-- What an access of the engine meets. -/
inductive Got where
  | val (x : Nat)
  | wait
  | bad (reason : Nat)
  deriving DecidableEq, Repr

/-- Bytes a core's scratchpad gives the engine for copy `id`, with the touch made in that core's map unit. A QFENCE between a tile operation
of the copy's own core and the copy orders them (R198). -/
def padRead (id : Nat) (k : CoreKey) (off : Int) (n : Nat) (s : State) : State × Got :=
  if off < 0 ∨ 0x300000 < off + (n : Int) then (s, .bad 9)
  else
    let a := off.toNat
    let home := s.key
    match touch a n (s.focus k) with
    | (s1, .wait) => (s1.focus home, .wait)
    | (s1, .fault _ r _) => (s1.focus home, .bad (copyReason r))
    | (s1, .ok) =>
      let fenced (f : Option Nat) : Bool := match f with | some x => k == home && decide (x < id) | none => false
      let x := s1.spLook fenced a n
      if s1.core.badAt a n then (s1.focus home, .bad 6) else (x.2.focus home, .val (ofBytes x.1))

/-- The line of an address bears an error mark (R28, R242). -/
def State.lineBad (s : State) (pa : Nat) : Bool := (s.line pa).bad.isSome

/-- A read of the core in view at the home slice of `va` is lost on its way from another ply: a beat of it has exhausted its retries
(R27, R356, entry 86). -/
def State.readLost (s : State) (va : Nat) : Bool :=
  slicePly (s.home s.core.act.part va) != s.key.cl.val / 2 && Config.beatLost s.seed

/-- A source read at a GVA, at the home slice; another device is out of the engine's reach (R289, R412). -/
def gvaGet (g : Word) (n : Nat) (s : State) : State × Got :=
  if !s.ownDevice (peerOf g) then (s, .bad 4)
  else
    match translate (vaOf g) false s with
    | (s1, .wait) => (s1, .wait)
    | (s1, .fault r _) => (s1, .bad r)
    | (s1, .hit pa) =>
      if !s1.meshOpen s1.key s1.core.act.part n || !s1.wayOpen (vaOf g) pa then (s1, .wait)
      else (s1.drawn.meshTake s1.key s1.core.act.part n, if s1.lineBad pa || s1.readLost (vaOf g) then .bad 6 else .val (ofBytes (s1.rdN pa n)))

/-- The core that a place's role names, none where the role is outside the gang (R244). -/
def roleAt (s : State) (r : Nat) : Option CoreKey :=
  if r = 0xFF ∨ r = s.core.act.role then some s.key else if r < s.gangSize then s.roleCore r else none

def placeRead (id : Nat) (p : Place) (n : Nat) (s : State) : State × Got :=
  match p with
  | .gva g => gvaGet g n s
  | .spm r off =>
    match roleAt s r with
    | some k => padRead id k off n s
    | none => (s, .bad 9)

/-- Where a write goes once its destination has been judged. -/
inductive Dest where
  | own (pa : Nat)
  | pad (k : CoreKey) (off : Nat)
  | wait
  | bad (reason : Nat)
  deriving DecidableEq, Repr

/-- Judges a destination at the issue of its write (R290, R294). -/
def placeDest (p : Place) (n : Nat) (s : State) : State × Dest :=
  match p with
  | .gva g =>
    if !s.ownDevice (peerOf g) then (s, .bad 4)
    else
      match translate (vaOf g) true s with
      | (s1, .hit pa) => (s1, .own pa)
      | (s1, .wait) => (s1, .wait)
      | (s1, .fault r _) => (s1, .bad r)
  | .spm r off =>
    if off < 0 ∨ 0x300000 < off + (n : Int) then (s, .bad 9)
    else
      match roleAt s r with
      | none => (s, .bad 9)
      | some k =>
        let home := s.key
        match touch off.toNat n (s.focus k) with
        | (s1, .ok) => (s1.focus home, .pad k off.toNat)
        | (s1, .wait) => (s1.focus home, .wait)
        | (s1, .fault _ r _) => (s1.focus home, .bad (copyReason r))

/-- Sends the write of one unit (R289, R293). -/
def sendCopyWrite (c : Copy) (b : Box) (w : Work) (v : Nat) (dst : Dest) (s : State) : State :=
  let credit := if b.hmode then 0 else w.bytes
  let kind (k : Option CoreKey) : ReqKind :=
    if c.kind = .reduce then .copyReduce c.id b.op b.rtype else .copyWrite c.id credit w.mask k
  let base (k : Option CoreKey) (pa : Nat) : Req :=
    { mkReq s (kind k) (w.dst.word) pa w.bytes with data := v, cls := c.ac, slot := 5, pos := c.pos, queue := c.q }
  let s1 := s.drawn.modCopy c.id fun x => { x with unacked := x.unacked + 1 }
  match dst with
  | .own pa => sendReq (base none pa) s1
  | .pad k off =>
    let r := base (some k) off
    let s2 := { s1 with reqs := s1.reqs ++ [r] }
    if k = s.key then s2.later 1 (.copyWriteAck s.key r.id)
    else s2.later (6 + stripDist s.key k) (.peerAccess r.id)
  | _ => s

/-- Unacknowledged write bursts of the engine of the core in view, one for each unit: those of copies that their reads have completed too
(R288, entry 94). -/
def State.engineWrites (s : State) : Nat := (s.reqs.filter fun r => r.key == s.key && r.copyOf.isSome).length

/-- The unit is dealt with: the copy goes on to the next. With HMODE = 1 its bytes are credited (R290), as are those of a clipped unit
that the clip credit does not hold, its index entry having been in error (R291, R292). -/
def unitDone (c : Copy) (b : Box) (w : Work) (s : State) : State :=
  let owed := (b.hmode && !c.again) || (w.clipped && c.late.contains (b.rowOf c.next))
  copyCredit c.id (if owed then w.bytes else 0) (s.modCopy c.id fun x => { x with next := x.next + 1, again := false })

/-- The write of a unit whose source gave `v`. The steps of a COPYR go one at a time, since the reply to one may stop the
copy there (R294). -/
def unitWrite (c : Copy) (b : Box) (w : Work) (v : Nat) (s : State) : State :=
  match placeDest w.dst w.bytes s with
  | (s1, .wait) => s1
  | (s1, .bad r) => copyStop c.id r w.dst.word (b.index c.next) s1
  | (s1, d) =>
    if (c.kind == .reduce && c.unacked != 0) || decide (512 ≤ s1.engineWrites) then s1
    else unitDone c b w (sendCopyWrite c b w (w.value b v) d s1)

/-- The earlier plain stores that the copy waits for are acknowledged (R239): those of a write-back that waits for its walk,
and the writes of copies that were issued before it, are among them. -/
def storesDone (s : State) (c : Copy) : Bool :=
  let waits (id : Nat) (cls : Fin 4) : Bool := decide (id < c.id) && (c.ac == 0 || cls == 0 || cls == c.ac)
  !s.core.heldBack && !(s.core.toks.any fun t => t.store && !t.clearing && waits t.id t.cls) &&
    !(s.reqs.any fun r => r.key == s.key && match r.copyOf with | some x => waits x r.cls | none => false)

/-- The copy of queue `q` that reads next: every one ahead has issued its last write (R287), its stores are done, and
no QFENCE holds it. -/
def copyHead (s : State) (q : Fin 4) : Option Copy :=
  match (s.core.queue q).find? fun c => !c.allIssued with
  | some c =>
    if c.st = 2 ∧ (c.next ≠ 0 ∨ (storesDone s c = true ∧ fenceBlocks s q.val c.id = false)) then some c else none
  | none => none

/-- One unit of the queue's copy: its read returns and its write is issued. The engine serves the next queue after it (R288). -/
def copyStep (q : Fin 4) (s : State) : State :=
  match copyHead s q with
  | none => s
  | some c =>
    match c.box with
    | none => s
    | some b =>
      let s := s.modCore fun k => { k with lastQ := q }
      let w := b.work c.kind (s.core.indexEntry c.kind b c.next) c.next
      if s.core.indexBad c.kind b c.next then copyStop c.id 6 (BitVec.ofNat 64 (b.indexAt c.next)) (b.index c.next) s
      else if w.clipped then unitDone c b w s
      else if w.moves then
        match placeRead c.id w.src w.bytes s with
        | (s1, .wait) => s1
        | (s1, .bad r) => copyStop c.id r w.src.word (b.index c.next) s1
        | (s1, .val v) => unitWrite c b w v s1
      else unitWrite c b w 0 s

/-- Bytes that the next unit of a copy reads and writes. -/
def Core.unitLoad (k : Core) (c : Copy) : Nat × Nat :=
  match c.box with
  | none => (0, 0)
  | some b =>
    let w := b.work c.kind (k.indexEntry c.kind b c.next) c.next
    (if w.moves then w.bytes else 0, if w.clipped then 0 else w.bytes)

/-- One tick of a queue that is served: units in loop order, up to `rd` bytes of reads and `wr` bytes of writes, until one has to wait
(R284, R288). -/
def copySteps (q : Fin 4) : Nat → Nat → Nat → State → State
  | 0, _, _, s => s
  | n + 1, rd, wr, s =>
    match copyHead s q with
    | none => s
    | some c =>
      let u := s.core.unitLoad c
      if rd < u.1 ∨ wr < u.2 then s
      else
        let s1 := copyStep q s
        if (s1.copy? c.id).any fun x => x.next == c.next then s1 else copySteps q n (rd - u.1) (wr - u.2) s1

/-- Bytes that the engine reads, and writes, in a tick: at most 256, and how many is free (R288, entry 94). -/
def State.tickBytes (s : State) : Nat := 16 + s.choose 241

/-- The queue that the transfer engine serves next: the first with work after the last (R288). -/
def nextQueue (s : State) : Option (Fin 4) :=
  ([1, 2, 3, 4].map fun i : Fin 5 => Fin.ofNat 4 (s.core.lastQ.val + i.val)).find? fun q => (copyHead s q).isSome

/-- COPY_READ_RETURN (R288, R290): the reads of one tick return. -/
def execCopyReadReturn (k : CoreKey) (q : Fin 4) (s : State) : Res :=
  .next (settle s (copySteps q 256 s.tickBytes s.tickBytes (s.drawn.focus k)))

/-! ### Acknowledgements -/

/-- Bytes written under a nibble mask (R494). -/
def maskBytes (mask old new : List Byte) : List Byte :=
  if mask = [] then new
  else (old.zip (mask.zip new)).map fun x => (x.1 &&& ~~~x.2.1) ||| (x.2.2 &&& x.2.1)

/-- A plain load: loads of one context never go back in a byte's order, whatever their classes (R227). -/
def Req.isLoad (r : Req) : Bool :=
  match r.kind with
  | .load | .peerLoad _ => true
  | _ => false

/-- A store to a peer's scratchpad. -/
def Req.isPeerStore (r : Req) : Bool :=
  match r.kind with
  | .peerStore _ => true
  | _ => false

/-- An earlier request of the same context that has to be applied first: for shared bytes (R224, R236), or as the stores of one core to one
peer keep their order (R226). One that stands as a replay entry is sent again, and holds back nothing. -/
def State.blocked (s : State) (r : Req) : Bool :=
  let place (q : Req) : Option CoreKey := match q.kind with
    | .copyWrite _ _ _ k => k
    | .peerLoad k | .peerStore k => some k
    | _ => none
  s.reqs.any fun q =>
    decide (q.id < r.id) && q.key == r.key && !q.applied && !q.held && q.remote == none && place q == place r &&
      ((q.isPeerStore && r.isPeerStore) ||
        (q.cls == r.cls || q.cls == 0 || r.cls == 0 || (q.isLoad && r.isLoad)) &&
          (if (place r).isSome then decide (q.pa < r.pa + r.size) && decide (r.pa < q.pa + q.size)
           else q.pa / 128 == r.pa / 128))

/-- A copy write to a scratchpad is made in the core in view. -/
def padWrite (r : Req) (mask : List Byte) (s : State) : State :=
  s.modCore fun c => c.spWrite r.pa (maskBytes mask (c.spRead r.pa r.size) (toBytes r.size r.data))

/-- The memory trace record of an acknowledgement or atomic reply with a tag (R223, R443). -/
def traceMem (r : Req) (s : State) : State :=
  let kind := if r.refill then 3 else match r.kind with
    | .atom _ => 1
    | .cas _ => if r.okay then 1 else 2
    | _ => 0
  if bitOf (s.part r.part).smpctl.toNat 2 then
    putSample r.part 3 [s.time, ((s.coreAt r.key).act.id r.key).toNat,
      r.tag.toNat * 2 ^ 32 + kind * 2 ^ 28 + r.slot * 2 ^ 24 + r.pos % 2 ^ 22, r.gva.toNat / 128 * 128] s
  else s

/-- A write that a slice has applied, whose acknowledgement carries the line's tag (R223). -/
def Req.hasTag (r : Req) : Bool :=
  match r.kind with
  | .copyWrite _ _ _ none | .copyReduce _ _ _ => true
  | _ => false

/-- The acknowledgement of a write of a copy reaches the engine: the handle is credited (R290). A negative reply stops
the copy at that unit (R294), which is done again on RESUME and credited once. -/
def copyAck (r : Req) (copy credit : Nat) (s : State) : State :=
  let s1 := (s.dropReq r.id).modCopy copy fun x => { x with unacked := x.unacked - 1 }
  if r.bad = 0 then copyCredit copy credit (if r.hasTag then traceMem r s1 else s1)
  else copyStopHere copy r.bad r.gva (s1.modCopy copy fun x => { x with next := x.next - 1, again := x.hmode })

/-- COPY_WRITE_ACK (R290). A write to the own scratchpad is made here and acknowledged with it (R289). -/
def copyWriteAck (id : Nat) (s : State) : State :=
  match s.req? id with
  | none => s
  | some r =>
    match r.kind with
    | .copyWrite c n mask pad =>
      if pad = some s.key then
        if s.blocked r then s.at (s.time + 1) (.copyWriteAck s.key id)
        else copyAck r c n ((padWrite r mask s).count 10 r.size)
      else if r.applied || r.bad != 0 then copyAck r c n s
      else s
    | .copyReduce c _ _ =>
      if r.applied || r.bad != 0 then
        copyAck r c (match s.copy? c with | some x => (match x.box with | some b => if b.hmode then 0 else r.size | none => 0)
                                          | none => 0) s
      else s
    | _ => s

def execCopyWriteAck (k : CoreKey) (id : Nat) (s : State) : Res := .next (settle s (copyWriteAck id (s.focus k)))

/-! ### RESUME and ABORT (R297, R298) -/

/-- The stopped copy of a queue. -/
def Core.stoppedCopy (c : Core) (q : Fin 4) : Option Copy := c.copies.find? fun x => x.q == q && x.st == 3

def cpyErr (s : State) : State := s.modCore fun c => { c with regsx := { c.regsx with cpyErr := true } }

/-- RESUME of a queue's stopped copy (R298). -/
def copyResume (q : Fin 4) (s : State) : State :=
  match s.core.stoppedCopy q with
  | none => cpyErr s
  | some c => s.modCopy c.id fun x => if x.box.isNone then { x with st := 1 } else { x with st := 2 }

/-- CPYCTL_RESUME (R297, R298). -/
def execCpyctlResume (k : CoreKey) (q : Fin 4) (s : State) : Res := .next (settle s (copyResume q (s.focus k)))

/-- Ends a stopped copy: one credit of REMAIN bytes, and the handle's ERR (R298). -/
def abortCopy (c : Copy) (s : State) : State :=
  let s1 := s.modCore fun k => { k with handles := k.handles.set c.handle { k.handles[c.handle] with err := true } }
  let r := s.core.copyRemain c
  drainCredits c.q (s1.modCopy c.id fun x =>
    { x with st := 4, again := false, held := if r = 0 then x.held else x.held ++ [r],
             next := match x.box with | some b => b.units | none => 0 })

/-- ABORT of a queue's stopped copy (R298). -/
def copyAbort (q : Fin 4) (s : State) : State :=
  match s.core.stoppedCopy q with
  | none => cpyErr s
  | some c => abortCopy c s

/-- CPYCTL_ABORT (R297, R298). -/
def execCpyctlAbort (k : CoreKey) (q : Fin 4) (s : State) : Res := .next (settle s (copyAbort q (s.focus k)))

/-- A write of CPYCTL (R297): ERR is cleared first, then the command, if any, is taken. -/
def cpyctlWrite (val : Word) (s : State) : State :=
  let s1 := if val.getLsbD 4 then s.modCore fun c => { c with regsx := { c.regsx with cpyErr := false } } else s
  let q : Fin 4 := Fin.ofNat 4 (fld val.toNat 6 2)
  match fld val.toNat 0 4 with
  | 0 => s1
  | 1 => copyResume q s1
  | 2 => copyAbort q s1
  | _ => cpyErr s1

end Sys2Proof.Machine
end

