-- ==== Sys2Proof/Machine/Flags.lean ====
section
/-! DEFINITION. Number formats, rounding and the sticky flags of FCTL (R135-R161). -/

namespace Sys2Proof.Machine

/-- Sticky flags of FCTL (R146). -/
def flagFV : Word := 0x100
def flagFZ : Word := 0x200
def flagFO : Word := 0x400
def flagFU : Word := 0x800
def flagFI : Word := 0x1000

/-- Special codes of a floating format (R136). -/
inductive Specials where
  | ieee | e4m3 | e2m1
  deriving DecidableEq, Repr

/-- A floating format (R135). -/
structure Fmt where
  width : Nat
  mb : Nat
  bias : Nat
  sp : Specials
  deriving DecidableEq, Repr

def Fmt.f32 : Fmt := ⟨32, 23, 127, .ieee⟩
def Fmt.f16 : Fmt := ⟨16, 10, 15, .ieee⟩
def Fmt.bf16 : Fmt := ⟨16, 7, 127, .ieee⟩
def Fmt.e5m2 : Fmt := ⟨8, 2, 15, .ieee⟩
def Fmt.e4m3 : Fmt := ⟨8, 3, 7, .e4m3⟩
def Fmt.e2m1 : Fmt := ⟨4, 1, 1, .e2m1⟩

/-- Largest exponent field. -/
def Fmt.emax (f : Fmt) : Nat := 2 ^ (f.width - 1 - f.mb) - 1

/-- Canonical NaN (R137); formats without NaN have none and give 0. -/
def Fmt.nan (f : Fmt) : Nat :=
  match f.sp with
  | .ieee => f.emax * 2 ^ f.mb + 2 ^ (f.mb - 1)
  | .e4m3 => 0x7F
  | .e2m1 => 0

/-- Infinity of a sign, in a format that has one. -/
def Fmt.inf (f : Fmt) (neg : Bool) : Nat := b2n neg * 2 ^ (f.width - 1) + f.emax * 2 ^ f.mb

/-- Largest finite code of a sign (R135). -/
def Fmt.maxFin (f : Fmt) (neg : Bool) : Nat :=
  b2n neg * 2 ^ (f.width - 1) +
    match f.sp with
    | .ieee => f.emax * 2 ^ f.mb - 1
    | .e4m3 => 0x7E
    | .e2m1 => 7

/-- A decoded value: NaN, an infinity, or a finite (-1)^neg × m × 2^e (R136). -/
inductive FV where
  | nan
  | inf (neg : Bool)
  | fin (neg : Bool) (m : Nat) (e : Int)
  deriving DecidableEq, Repr

/-- Decodes a floating code (R136). An E2M1 code 0b1000 reads here as +0 (R154). -/
def Fmt.decode (f : Fmt) (c : Nat) : FV :=
  let neg := bitOf c (f.width - 1)
  let ex := fld c f.mb (f.width - 1 - f.mb)
  let m := fld c 0 f.mb
  let u : Int := 1 - f.bias - f.mb
  let fin : FV := if ex = 0 then .fin neg m u else .fin neg (2 ^ f.mb + m) (u + (ex - 1 : Int))
  match f.sp with
  | .ieee => if ex = f.emax then (if m = 0 then .inf neg else .nan) else fin
  | .e4m3 => if ex = f.emax ∧ m = 7 then .nan else fin
  | .e2m1 => if c % 16 = 8 then .fin false 0 u else fin

/-- A subnormal code: exponent field 0 and mantissa not 0. -/
def Fmt.isSub (f : Fmt) (c : Nat) : Bool := fld c f.mb (f.width - 1 - f.mb) == 0 && fld c 0 f.mb != 0

/-- Number of bits of a natural number. -/
def bitLen (n : Nat) : Nat := if n = 0 then 0 else Nat.log2 n + 1

/-- Integer square root by bits, highest first. -/
def isqrtAux (n : Nat) : Nat → Nat → Nat
  | 0, r => r
  | i + 1, r => if (r + 2 ^ i) * (r + 2 ^ i) ≤ n then isqrtAux n i (r + 2 ^ i) else isqrtAux n i r

/-- Largest r with r × r ≤ n. -/
def isqrt (n : Nat) : Nat := isqrtAux n (bitLen n / 2 + 1) 0

/-- The neighbour toward zero and the fraction in 2^-40ths: |x| = (q + sticky) × 2^e on the grid of unit 2^u.
The answer is lo, whether x is off the grid, the comparison of the fraction with one half, and R142's t. -/
structure OnGrid where
  lo : Nat
  off : Bool
  half : Ordering
  t : Nat
  deriving DecidableEq, Repr

/-- Places q × 2^e (plus a remainder below 2^e when sticky) on the grid 2^u. -/
def onGrid (q : Nat) (e : Int) (sticky : Bool) (u : Int) : OnGrid :=
  if u ≤ e then
    { lo := q * 2 ^ (e - u).toNat, off := sticky, half := .lt, t := 0 }
  else
    let sh := (u - e).toNat
    if bitLen q + 20 < sh then { lo := 0, off := q != 0 || sticky, half := .lt, t := 0 }
    else
      let r := q % 2 ^ sh
      let h := 2 ^ (sh - 1)
      { lo := q / 2 ^ sh, off := r != 0 || sticky,
        half := if r < h then .lt else if r = h ∧ ¬ sticky then .eq else .gt,
        t := 65536 * r / 2 ^ sh }

/-- Whether a mode takes the neighbour away from zero (R142); `draw` is the 16-bit draw of RSR. -/
def roundsAway (m : RMode) (neg : Bool) (g : OnGrid) (draw : Nat) : Bool :=
  g.off &&
    match m with
    | .rne => g.half == .gt || (g.half == .eq && g.lo % 2 == 1)
    | .rz => false
    | .rdn => neg
    | .rup => !neg
    | .rsr => decide (draw < g.t)

/-- The overflow result of R149. -/
def Fmt.overflow (f : Fmt) (m : RMode) (neg : Bool) : Nat :=
  match f.sp with
  | .ieee =>
    match m with
    | .rne | .rsr => f.inf neg
    | .rz => f.maxFin neg
    | .rdn => if neg then f.inf true else f.maxFin false
    | .rup => if neg then f.maxFin true else f.inf false
  | _ => f.maxFin neg

/-- Whether n × 2^u exceeds the largest finite magnitude of the format. -/
def Fmt.exceeds (f : Fmt) (n : Nat) (u : Int) : Bool :=
  match f.decode (f.maxFin false) with
  | .fin _ m e => if u ≤ e then decide (m * 2 ^ (e - u).toNat < n)
                  else decide ((bitLen n : Int) + u > bitLen m + e) || decide (m < n * 2 ^ (u - e).toNat)
  | _ => false

/-- Code of the representable magnitude n × 2^u, u at least the unit of the subnormals. -/
def Fmt.pack (f : Fmt) (neg : Bool) (n : Nat) (u : Int) : Nat :=
  let s := b2n neg * 2 ^ (f.width - 1)
  if n = 0 then (if f.sp = .e2m1 then 0 else s)
  else if n < 2 ^ f.mb then s + n
  else
    let ex := (u + f.bias + f.mb).toNat
    if n < 2 ^ (f.mb + 1) then s + ex * 2 ^ f.mb + (n - 2 ^ f.mb) else s + (ex + 1) * 2 ^ f.mb + (n / 2 - 2 ^ f.mb)

/-- Rounds (-1)^neg × (q + sticky) × 2^e to the format, with the flags raised (R142, R146, R149). A zero keeps its
sign. Tininess is judged on the rounded result (entry 15). -/
def Fmt.round (f : Fmt) (m : RMode) (draw : Nat) (neg : Bool) (q : Nat) (e : Int) (sticky : Bool) : Nat × Word :=
  if q = 0 ∧ ¬ sticky then (f.pack neg 0 0, 0)
  else
    let top : Int := bitLen q + e - 1
    let least : Int := 1 - f.bias - f.mb
    let u := if top - f.mb < least then least else top - f.mb
    let g := onGrid q e sticky u
    let n := if roundsAway m neg g draw then g.lo + 1 else g.lo
    if f.exceeds n u then (f.overflow m neg, flagFO ||| flagFI)
    else
      (f.pack neg n u,
        if g.off then (if n < 2 ^ f.mb then flagFI ||| flagFU else flagFI) else 0)

/-- Flushes a subnormal result when FTZ is set (R147). -/
def Fmt.flush (f : Fmt) (ftz : Bool) (r : Nat × Word) : Nat × Word :=
  if ftz && f.isSub r.1 then (b2n (bitOf r.1 (f.width - 1)) * 2 ^ (f.width - 1), r.2 ||| flagFU ||| flagFI) else r

/-- Reads a code, subnormals as zero of the same sign when DAZ is set (R146, R147). -/
def Fmt.read (f : Fmt) (daz : Bool) (c : Nat) : FV :=
  if daz && f.isSub c then .fin (bitOf c (f.width - 1)) 0 0 else f.decode c

/-- An exact finite value as a signed mantissa. -/
def signed (neg : Bool) (m : Nat) : Int := if neg then -(m : Int) else m

/-- Exact sum of two finite values, as mantissa and exponent. -/
def addExact (a b : Int × Int) : Int × Int :=
  if a.2 ≤ b.2 then (a.1 + b.1 * 2 ^ (b.2 - a.2).toNat, a.2) else (a.1 * 2 ^ (a.2 - b.2).toNat + b.1, b.2)

/-- Rounds an exact sum; an exact zero is +0, or −0 in RDN, and a sum of zeros of one sign keeps it (R168). -/
def Fmt.roundSum (f : Fmt) (m : RMode) (draw : Nat) (bothNeg : Bool) (v : Int × Int) : Nat × Word :=
  if v.1 = 0 then (f.pack (bothNeg || m == .rdn) 0 0, 0)
  else f.round m draw (decide (v.1 < 0)) v.1.natAbs v.2 false

/-- x + y rounded once, with the special cases of R168. -/
def Fmt.add (f : Fmt) (m : RMode) (draw : Nat) (x y : FV) : Nat × Word :=
  match x, y with
  | .nan, _ | _, .nan => (f.nan, 0)
  | .inf a, .inf b => if a = b then (f.inf a, 0) else (f.nan, flagFV)
  | .inf a, .fin _ _ _ => (f.inf a, 0)
  | .fin _ _ _, .inf b => (f.inf b, 0)
  | .fin na ma ea, .fin nb mb eb =>
    if ma = 0 ∧ mb = 0 then (f.pack (if na = nb then na else m == .rdn) 0 0, 0)
    else f.roundSum m draw false (addExact (signed na ma, ea) (signed nb mb, eb))

/-- Negation of a value. -/
def FV.neg : FV → FV
  | .nan => .nan
  | .inf s => .inf (!s)
  | .fin s m e => .fin (!s) m e

/-- The exact product; none is 0 × ∞, which is invalid (R168). -/
def FV.mul : FV → FV → Option FV
  | .nan, _ | _, .nan => some .nan
  | .inf a, .inf b => some (.inf (a != b))
  | .inf a, .fin b m _ => if m = 0 then none else some (.inf (a != b))
  | .fin a m _, .inf b => if m = 0 then none else some (.inf (a != b))
  | .fin a ma ea, .fin b mb eb => some (.fin (a != b) (ma * mb) (ea + eb))

/-- A value rounded to the format. -/
def Fmt.ofFV (f : Fmt) (m : RMode) (draw : Nat) : FV → Nat × Word
  | .nan => (f.nan, 0)
  | .inf s => (f.inf s, 0)
  | .fin s n e => f.round m draw s n e false

/-- x × y rounded once (R168). An exact zero has the product's sign, of a zero and a nonzero value too (entry 88, DESIGN CHOICE). -/
def Fmt.mul (f : Fmt) (m : RMode) (draw : Nat) (x y : FV) : Nat × Word :=
  match FV.mul x y with
  | none => (f.nan, flagFV)
  | some p => f.ofFV m draw p

/-- x × y + z rounded once (R168): NaN operands, then the invalid product, then a NaN z. -/
def Fmt.fma (f : Fmt) (m : RMode) (draw : Nat) (x y z : FV) : Nat × Word :=
  match FV.mul x y with
  | none => (f.nan, flagFV)
  | some p => f.add m draw p z

/-- Comparison of values that are not NaN; −0 equals +0. -/
def FV.cmp (x y : FV) : Ordering :=
  match x, y with
  | .inf a, .inf b => if a = b then .eq else if a then .lt else .gt
  | .inf a, _ => if a then .lt else .gt
  | _, .inf b => if b then .gt else .lt
  | .fin na ma ea, .fin nb mb eb =>
    let d := (addExact (signed na ma, ea) (-(signed nb mb), eb)).1
    if d < 0 then .lt else if d = 0 then .eq else .gt
  | _, _ => .eq

def FV.isNan : FV → Bool
  | .nan => true
  | _ => false

def FV.sign : FV → Bool
  | .nan => false
  | .inf s => s
  | .fin s _ _ => s

/-- The code of a value that the format represents exactly. -/
def Fmt.code (f : Fmt) : FV → Nat
  | .nan => f.nan
  | .inf s => f.inf s
  | .fin s n e => (f.round .rz 0 s n e false).1

/-- Larger (or smaller) of two values, +0 taken as larger than −0 (R169). -/
def FV.pick (larger : Bool) (x y : FV) : FV :=
  match x.cmp y with
  | .lt => if larger then y else x
  | .gt => if larger then x else y
  | .eq => if x.sign = larger then y else x

/-- VMAX and VMIN of R169. -/
def Fmt.minmax (f : Fmt) (larger daz ftz : Bool) (a b : Nat) : Nat × Word :=
  let x := f.read daz a
  let y := f.read daz b
  if x.isNan || y.isNan then (f.nan, 0) else f.flush ftz (f.code (x.pick larger y), 0)

/-- 1 / x, correctly rounded (R180). -/
def Fmt.rcp (f : Fmt) (m : RMode) (draw : Nat) : FV → Nat × Word
  | .nan => (f.nan, 0)
  | .inf s => (f.pack s 0 0, 0)
  | .fin s n e =>
    if n = 0 then (f.inf s, flagFZ)
    else
      let k := bitLen n + 64
      f.round m draw s (2 ^ k / n) (-e - k) (2 ^ k % n != 0)

/-- 1 / √x, correctly rounded (R180). -/
def Fmt.rsq (f : Fmt) (m : RMode) (draw : Nat) : FV → Nat × Word
  | .nan => (f.nan, 0)
  | .inf s => if s then (f.nan, flagFV) else (f.pack false 0 0, 0)
  | .fin s n e =>
    if n = 0 then (f.inf s, flagFZ)
    else if s then (f.nan, flagFV)
    else
      let n2 := if e % 2 = 0 then n else 2 * n
      let e2 := if e % 2 = 0 then e else e - 1
      let k := bitLen n2 + 64
      let q := isqrt (2 ^ (2 * k) / n2)
      f.round m draw false q (-(e2 / 2) - k) (q * q * n2 != 2 ^ (2 * k))

/-- Bits kept by the computation of 2^f (entry 16). -/
def expBits : Nat := 256

/-- Multiplies `acc` by 2^(2^-i) for each bit of the fraction, highest first; `c` is the present root of two. -/
def expFrac : List Bool → Nat → Nat → Nat
  | [], _, acc => acc
  | b :: bs, c, acc =>
    let r := isqrt (c * 2 ^ expBits)
    expFrac bs r (if b then acc * r / 2 ^ expBits else acc)

/-- 2^x, correctly rounded (R180). -/
def Fmt.exp2 (f : Fmt) (m : RMode) (draw : Nat) : FV → Nat × Word
  | .nan => (f.nan, 0)
  | .inf s => if s then (f.pack false 0 0, 0) else (f.inf false, 0)
  | .fin s n e =>
    if n = 0 then f.round m draw false 1 0 false
    else if 0 ≤ e then f.round m draw false 1 (signed s (n * 2 ^ e.toNat)) false
    else
      let k := (-e).toNat
      let v := signed s n
      let whole := v / 2 ^ k
      let fr := (v % 2 ^ k).toNat
      if fr = 0 then f.round m draw false 1 whole false
      else
        let bits := (List.range k).map fun i => bitOf fr (k - 1 - i)
        let q := expFrac bits (2 ^ (expBits + 1)) (2 ^ expBits)
        f.round m draw false (q / 65536) (whole - (expBits - 16)) true

/-! ### Stochastic draws -/

/-- One draw of R143 from SRS. -/
def srsDraw (srs : Word) : Nat × Word :=
  let x0 : BitVec 32 := srs.setWidth 32
  if srs.getLsbD 32 then ((x0 >>> 16).toNat, x0.setWidth 64)
  else
    let x := if x0 = 0 then 0x6D2B79F5 else x0
    let x := x ^^^ (x <<< 13)
    let x := x ^^^ (x >>> 17)
    let x := x ^^^ (x <<< 5)
    (x.toNat % 65536, x.setWidth 64 ||| 0x100000000)

/-- `n` draws in order, and SRS after them. -/
def srsDraws : Nat → Word → List Nat × Word
  | 0, s => ([], s)
  | n + 1, s =>
    let (d, s1) := srsDraw s
    let (ds, s2) := srsDraws n s1
    (d :: ds, s2)

/-- Rounding mode of FCTL.RM (R146). A reserved code, which only an edited frame can bring, is taken as RSR (entry 88, DESIGN CHOICE). -/
def fctlMode (f : Word) : RMode :=
  match fld f.toNat 2 3 with
  | 0 => .rne | 1 => .rz | 2 => .rdn | 3 => .rup | _ => .rsr

def fctlDaz (f : Word) : Bool := f.getLsbD 1
def fctlFtz (f : Word) : Bool := f.getLsbD 0

/-! ### Conversions -/

/-- What a conversion format is (R51). -/
inductive CKind where
  | flt (f : Fmt)
  | int (w : Nat) (sgn : Bool)
  | scale
  deriving DecidableEq, Repr

def cvtKind : CvtT → CKind
  | .f32 => .flt .f32 | .f16 => .flt .f16 | .bf16 => .flt .bf16 | .e4m3 => .flt .e4m3 | .e5m2 => .flt .e5m2
  | .e2m1 => .flt .e2m1
  | .i4 => .int 4 true | .i8 => .int 8 true | .i16 => .int 16 true | .i32 => .int 32 true
  | .ui4 => .int 4 false | .ui8 => .int 8 false | .ui16 => .int 16 false | .ui32 => .int 32 false
  | .e8m0 => .scale

/-- The exact value of a source element (R136, R140, R141, R148). -/
def CKind.value (k : CKind) (c : Nat) : FV :=
  match k with
  | .flt f => f.decode c
  | .int w sgn => let v := if sgn then sInt w c else ((c % 2 ^ w : Nat) : Int); .fin (decide (v < 0)) v.natAbs 0
  | .scale => if c % 256 = 255 then .nan else .fin false 1 (c % 256 - 127 : Int)

/-- Least and greatest value of an integer format. -/
def intRange (w : Nat) (sgn : Bool) : Int × Int :=
  if sgn then (-(2 ^ (w - 1)), 2 ^ (w - 1) - 1) else (0, 2 ^ w - 1)

/-- To an integer format, R151 and R152. -/
def toInt (w : Nat) (sgn : Bool) (m : RMode) (draw : Nat) (v : FV) : Nat × Word :=
  let (lo, hi) := intRange w sgn
  let enc (x : Int) : Nat := (x % 2 ^ w).toNat
  match v with
  | .nan => (0, flagFV)
  | .inf s => (enc (if s then lo else hi), flagFV)
  | .fin s n e =>
    let g := onGrid n e false 0
    let k := if roundsAway m s g draw then g.lo + 1 else g.lo
    let x := signed s k
    if x < lo then (enc lo, flagFO ||| flagFI)
    else if hi < x then (enc hi, flagFO ||| flagFI)
    else (enc x, if g.off then flagFI else 0)

/-- To E8M0, R153. -/
def toScale (m : RMode) (draw : Nat) (v : FV) : Nat × Word :=
  match v with
  | .nan => (0xFF, flagFV)
  | .inf s => if s then (0xFF, flagFV) else (0xFE, flagFV)
  | .fin s n e =>
    if n = 0 then (0, flagFU)
    else if s then (0xFF, flagFV)
    else
      let k : Int := (bitLen n : Int) - 1 + e
      let one := 2 ^ (bitLen n - 1)
      let r := n - one
      let g : OnGrid := { lo := 0, off := r != 0,
                          half := if 2 * r < one then .lt else if 2 * r = one then .eq else .gt,
                          t := 65536 * r / one }
      let up := g.off &&
        match m with
        | .rne => g.half == .gt || (g.half == .eq && (k + 127) % 2 == 1)
        | .rz | .rdn => false
        | .rup => true
        | .rsr => decide (draw < g.t)
      let x := if up then k + 1 else k
      if 127 < x then (0xFE, flagFO ||| flagFI) else if x < -127 then (0, flagFU ||| flagFI)
      else ((x + 127).toNat, if g.off then flagFI else 0)

/-- One conversion (R148-R154). -/
def convert (src tgt : CKind) (m : RMode) (draw : Nat) (c : Nat) : Nat × Word :=
  let v := src.value c
  match tgt with
  | .int w sgn => toInt w sgn m draw v
  | .scale => toScale m draw v
  | .flt f =>
    match v with
    | .nan => if f.sp = .e2m1 then (0, flagFV) else (f.nan, 0)
    | .inf s => if f.sp = .ieee then (f.inf s, 0) else (f.maxFin s, flagFV)
    | .fin s n e => f.round m draw s n e false

/-- Whether every value of the source format is representable in the target (R148, "always exact"). -/
def alwaysExact (src tgt : CKind) : Bool :=
  match src, tgt with
  | .int w1 s1, .int w2 s2 => decide (w1 < w2) || (w1 == w2 && s1 == s2)
  | .scale, .scale => true
  | .scale, .flt f => f == .f32 || f == .bf16
  | .int w s, .flt f => decide ((if s then w - 1 else w) ≤ f.mb + 1) && !(f.sp == .e2m1)
      && !(f == .e4m3 && decide (8 < w)) && !(f == .f16 && decide (16 ≤ w))
  | .flt a, .flt b => a == b || (decide (a.mb ≤ b.mb) && (b == .f32 ||
      (a == .e2m1 && b != .e2m1) || (a == .e4m3 && (b == .f16 || b == .bf16)) || (a == .e5m2 && (b == .f16 || b == .bf16))))
  | _, _ => false

/-! ### Non-adjacent form -/

/-- Tau (R159): nonzero digits of the non-adjacent form, on `fuel` digits. -/
def tauAux : Nat → Nat → Nat
  | 0, _ => 0
  | _ + 1, 0 => 0
  | fuel + 1, n =>
    if n % 2 = 1 then (if n % 4 = 1 then 1 + tauAux fuel ((n - 1) / 2) else 1 + tauAux fuel ((n + 1) / 2))
    else tauAux fuel (n / 2)

def tau (n : Nat) : Nat := tauAux (bitLen n + 1) n

end Sys2Proof.Machine
end

