-- ==== Sys2Proof/Machine/Issue.lean ====
section
/-! DEFINITION. The sequencer: landing of results, fetch, decoding, the order of the traps at a bundle's issue,
completion with its control effect and loop-end processing (R30-R34, R43-R46, R62-R64, R73-R74, R90-R94, R125-R130,
R446). -/

namespace Sys2Proof.Machine

/-! ### Landing -/

/-- Order of landing: landing cycle, then issue, then slot (R45, R46). -/
def Flight.before (a b : Flight) : Bool :=
  decide (a.due < b.due) ||
    (a.due == b.due && (decide (a.cyc < b.cyc) || (a.cyc == b.cyc && decide (a.slot ≤ b.slot))))

def insertFlight (f : Flight) : List Flight → List Flight
  | [] => [f]
  | g :: gs => if g.before f then g :: insertFlight f gs else f :: g :: gs

def sortFlights : List Flight → List Flight
  | [] => []
  | f :: fs => insertFlight f (sortFlights fs)

/-- Elements of an m register written by a landing VMWR (R185). -/
def mWrite (m : BitVec 262144) (d : Dir) (idx mask : Word) (x : Vec) : BitVec 262144 :=
  (List.range 64).foldl (fun m i =>
    if mask.getLsbD i then
      let p := mPos d idx i
      mSet m p.1 p.2 (lane 32 x i)
    else m) m

/-- A register write of a landing result that lies outside the register file (R164, R185). -/
def Core.landExtra (c : Core) : RegWrite → Core
  | .feed f key x =>
    match c.feeds[f] with
    | none => c
    | some fd => { c with feeds := c.feeds.set f (some { fd with
        res := fd.res.map fun r => if r.1 * 2 ^ 32 + r.2.1 = key then (r.1, r.2.1, some x) else r }) }
  | .m o idx mask x =>
    let ws : List Raced := ((List.range 64).filter fun i => mask.getLsbD i).map fun i =>
      let p := mPos o.dir idx i
      ⟨some o.m, p.1, p.2, mGet c.tile.m[o.m] p.1 p.2, lane 32 x i⟩
    { c with tile := { c.tile with m := c.tile.m.set o.m (mWrite c.tile.m[o.m] o.dir idx mask x) }.raceWith ws }
  | _ => c

/-- One landing (R43-R46): `prior` are the writes already landed with their cycles. -/
def landFlight (f : Flight) (prior : List (Nat × RegWrite)) (c : Core) : Core :=
  let clash := (f.writes.filter fun w => prior.any fun p => p.1 == f.due && p.2.clash w).length
  let regs := match f.latch with
    | some x => c.act.regs.shiftLatch f.slot x
    | none => c.act.regs
  let a := { c.act with
    regs := f.writes.foldl RegFile.apply regs,
    sys := { c.act.sys with fctl := c.act.sys.fctl ||| f.flags,
                            cstat := if clash = 0 then c.act.sys.cstat else c.act.sys.cstat ||| 1 } }
  let a := match f.refresh with
    | some r => a.refresh r
    | none => a
  (f.writes.foldl Core.landExtra { c with act := a }).count 22 clash

def landFlights : List Flight → List (Nat × RegWrite) → Core → Core
  | [], _, c => c
  | f :: fs, prior, c => landFlights fs (prior ++ f.writes.map fun w => (f.due, w)) (landFlight f prior c)

/-- Results due at the present virtual cycle. -/
def Ctx.dueNow (c : Ctx) : List Flight := sortFlights (c.flights.filter fun f => decide (f.due ≤ c.vcyc))

/-- A due result has not arrived (R74). -/
def Ctx.missing (c : Ctx) : Bool := c.dueNow.any fun f => f.need.isSome

/-- Lands every due result. -/
def landDue (s : State) : State :=
  s.modCore fun c =>
    landFlights c.act.dueNow [] { c with act := { c.act with flights := c.act.flights.filter fun f => !decide (f.due ≤ c.act.vcyc) } }

/-! ### Fetch -/

/-- The executable range (R105). -/
def Core.fetchable (c : Core) (a n : Nat) : Bool :=
  let r := c.regions[63]
  r.mode != 0 && a % 4 == 0 && decide (r.spa ≤ a) && decide (a + n ≤ r.spa + r.size)

/-- What reading code words answers. -/
inductive Fetched where
  | wait
  | trap (t : Trap)
  | ok
  deriving DecidableEq, Repr

/-- The instruction fetch fault (R126, R267): EINFO is the bundle address. -/
def fetchTrap (a : Nat) (gva : Word) : Trap := ⟨0x10, 0, BitVec.ofNat 64 a, gva, 0⟩

/-- Makes the words of `[a, a + n)` of the bundle at `base` readable (R64, R105, R126). -/
def fetchWords (base a n : Nat) (s : State) : State × Fetched :=
  if !s.core.fetchable a n then (s, .trap (fetchTrap base 0))
  else
    match touch a n s with
    | (s1, .wait) => (s1, .wait)
    | (s1, .fault g _ _) => (s1, .trap (fetchTrap base g))
    | (s1, .ok) =>
      if (List.range n).any fun i => s1.core.spBad.contains (s1.core.physOff (a + i)) then
        (s1, .trap ⟨0x13, 0, BitVec.ofNat 64 base, 0, 0⟩)
      else (s1, .ok)

/-- A code word. -/
def Core.code (c : Core) (a : Nat) : Nat := ofBytes (c.spRead a 4)

/-- The slots of a bundle in ascending order: decoded, or the first illegal one with its word (R62, R63). -/
def decodeSlots (c : Core) (a : Nat) (mask : BitVec 7) : List (Fin 7) → Nat → List Instr × Option (Nat × Nat)
  | [], _ => ([], none)
  | sl :: rest, k =>
    if mask.getLsbD sl.val then
      let w := c.code (a + 4 * k)
      match decodeSlot sl w with
      | none => ([], some (sl.val, w))
      | some i =>
        let r := decodeSlots c a mask rest (k + 1)
        (i :: r.1, r.2)
    else decodeSlots c a mask rest k

/-! ### Completion -/

/-- Goes on at address `a`. -/
def goTo (a : Nat) (s : State) : State :=
  s.modCtx fun c => { c with pos := a, phase := .ready, bun := none, snap := none, wins := [], stage := none }

/-- The branch trace record of a taken control transfer (R443). -/
def traceBranch (kind target : Nat) (s : State) : State :=
  let c := s.core.act
  if bitOf (s.part c.part).smpctl.toNat 1 then
    putSample c.part 2 [s.time, (c.id s.key).toNat,
      kind * 2 ^ 62 + target % 2 ^ 22 * 2 ^ 36 + 6 * 2 ^ 24 + c.pos % 2 ^ 22] s
  else s

/-- Goes on after the end bundle at `e`, whose header the sequencer reads (R129, R131). An `e` outside the executable range raises R126's
fault: the bundle that chose it has completed, and `e` is the position. A granule that cannot be filled leaves the completion to be made
again on RESUME (entry 70). -/
def afterEnd (e : Nat) (done : Nat → State → State) (s : State) : State :=
  match fetchWords e e 4 s with
  | (s1, .wait) => frozenTick s1
  | (s1, .trap t) => if s1.core.fetchable e 4 then superTrap t s1 else superTrap t (goTo e s1)
  | (s1, .ok) => done (e + 4 * (1 + maskCount (BitVec.ofNat 7 (fld (s1.core.code e) 24 7)))) s1

/-- Loop-end processing on the visible entries (R130): the stack left, the loop-back target, whether any matched. -/
def loopEnd (a : Nat) : Nat → List Loop → Bool → List Loop × Option Word × Bool
  | 0, ls, m => (ls, none, m)
  | _ + 1, [], m => ([], none, m)
  | n + 1, l :: ls, m =>
    if l.fin.toNat = a then
      if (l.index + 1).toNat < l.count.toNat then ({ l with index := l.index + 1 } :: ls, some l.start, true)
      else loopEnd a n ls true
    else (l :: ls, none, m)

/-- CSTAT.PREQ. -/
def Ctx.preq (c : Ctx) : Bool := c.sys.cstat.getLsbD 1

/-- An iteration boundary stops a member with PREQ = 1 outside a handler and outside an exchange phase (R81, R343). -/
def Ctx.stopsAt (c : Ctx) (p matched : Bool) : Bool := p && matched && c.preq && !c.inHandler && c.epoch.isNone

/-- The bundle in view completes after its EMPTY cycles (R125). -/
def complete (b : Bundle) (s : State) : State :=
  let c := s.core.act
  let nxt := b.addr + 4 * (1 + maskCount b.mask)
  match b.ctl with
  | some .fin =>
    (blocksEnd s).modCtx fun c => { c with
      pos := nxt, loops := [], phase := .drain, bun := none, snap := none, wins := [], stage := none, asyncQ := [],
      railTrap := [], ended := true, sys := { c.sys with estat := c.sys.estat &&& ~~~0x10#64 } }
  | some .eret => s.modCtx (returnFromTrap s.time)
  | some (.goto t k) => goTo t.toNat (traceBranch k t.toNat s)
  | some (.push l) => goTo l.start.toNat (s.modCtx fun c => { c with loops := l :: c.loops })
  | some (.skip e) => afterEnd e.toNat goTo s
  | some .leave =>
    match c.loops with
    | [] => goTo nxt s
    | l :: ls =>
      let left (t : State) : State := t.modCtx fun c => { c with loops := ls }
      if s.core.fetchable l.fin.toNat 4 then afterEnd l.fin.toNat (fun a t => goTo a (traceBranch 3 a (left t))) s
      else afterEnd l.fin.toNat goTo (left s)
  | none =>
    let r := loopEnd b.addr c.visible c.loops false
    let s1 := goTo (match r.2.1 with | some t => t.toNat | none => nxt) (s.modCtx fun c => { c with loops := r.1 })
    if c.stopsAt b.p r.2.2 then s1.modCtx fun c => { c with phase := .boundary } else s1

/-! ### Landing-time traps (R92) -/

/-- What a stop before the issue of the bundle at the position records of it (R90). -/
def Ctx.found (w now : Nat) (c : Ctx) : Ctx :=
  let done : BitVec 7 := match c.bun with
    | some b => b.done
    | none => 0
  { c with bun := some { addr := c.pos, cyc := c.vcyc, tick := now, mask := BitVec.ofNat 7 (fld w 24 7), done := done,
                         empty := 0, p := false, ctl := none, swr := none, slots := [] } }

/-- A bundle whose EMPTY cycles are over completes, so that the position is the bundle that issues at the present virtual cycle. -/
def passGap (s : State) : State :=
  let c := s.core.act
  match c.phase, c.bun with
  | .gap, some b =>
    if c.vcyc < b.cyc + 1 + b.empty then s
    else
      let s1 := complete b (s.modCore (·.takeSwr s.time (s.part c.part).cap))
      match s1.core.act.phase with
      | .gap => s
      | .ready =>
        (match fetchWords s1.core.act.pos s1.core.act.pos 4 s1 with
         | (_, .ok) => s1.modCtx (·.found (s1.core.code s1.core.act.pos) s1.time)
         | _ => s1)
      | _ => s1
  | _, _ => s

/-- An XSEL that a trap interrupts is issued again, and judged again, on resumption (R91, R92, R345). -/
def Ctx.xselAgain (c : Ctx) : Ctx :=
  match c.stage with
  | some (.selecting _) | some (.captured _) => { c with stage := none }
  | _ => c

/-- A landing-time trap (R92): always to the supervisor, with the operation kept as a replay entry. The
position is the bundle whose issue or EMPTY cycles the core is in, else the one that issues at this cycle. -/
def landingTrap (t : Trap) (replay : Option Nat) (s : State) : State :=
  let s0 := passGap s
  let s1 := (if s0.core.act.phase = .issuing then s0.modCore Core.snapshot else s0).modCtx fun c =>
    { c with replay := c.replay.filter (fun n => replay != some n) ++ replay.toList }
  if s1.core.act.stopped then pushRecord s1.core.act.part (trapRecord s1 t) s1 else superTrap t (s1.modCtx Ctx.xselAgain)

/-! ### Banks (R254) -/

/-- Physical bank words of bytes [a, a + n) of the own scratchpad (R252). -/
def Core.bankWords (c : Core) (a n : Nat) : List Nat := ((List.range ((n + 3) / 4)).map fun i => c.physOff (a + 4 * i) / 64).eraseDups

/-- Ticks beyond the first that accesses to these bank words need: the bank of word w is w mod 32. -/
def extraTicks (ws : List Nat) : Nat :=
  (ws.map fun w => (ws.filter fun v => v % 32 == w % 32).length).foldl Nat.max 1 - 1

/-- Bank words of S2's access to the own scratchpad, as its operands stand at issue. -/
def ownWords (s : State) (i : Instr) : List Nat :=
  let own (ea : Word) (n : Nat) : List Nat := if spaOk s ea && spaOwn s ea then s.core.bankWords (spaOff ea) n else []
  match i with
  | .lds r => if s.guard r.g then own (eaMem s r.base r.off (sizeL r.w)) (sizeL r.w) else []
  | .sts r => if s.guard r.g then own (eaMem s r.base r.off (sizeS r.w)) (sizeS r.w) else []
  | .ldv r => if s.guard r.g then own (eaMem s r.base r.off 256) 256 else []
  | .stv r => if s.guard r.g then own (eaMem s r.base r.off 256) 256 else []
  | _ => []

/-- The words that the bundle at the position needs and the fetch buffer does not hold. -/
def Core.fetchWordsNew (c : Core) (mask : BitVec 7) : List Nat :=
  (c.bankWords c.act.pos (4 * (1 + maskCount mask))).filter fun w => !c.fetchBuf.contains w

/-! ### Issue -/

/-- Puts the slots that have not committed in front of the agenda. -/
def pushSlots (s : State) : State :=
  match s.core.act.bun with
  | none => s
  | some b =>
    if b.slots = [] then s.modCtx fun c => { c with phase := .gap, snap := none, wins := [], stage := none, vcyc := b.cyc + 1 }
    else { s.modCtx Ctx.presents with agenda := b.slots ++ s.agenda }

/-- An asynchronous trap may be taken now (R94). -/
def Ctx.asyncDue (c : Ctx) : Bool := c.asyncQ != [] && !c.inHandler

/-- A slot that waits on an inbound feed. -/
def waitsOnFeed (c : Core) (i : Instr) : Bool :=
  (feedSources i).any fun f =>
    !(c.act.wins.any fun w => w.1 == f.val) &&
      match c.feeds[f] with
      | some fd => !fd.pat.out && fd.buf == []
      | none => false

/-- The freezes that an asynchronous trap ends (R94). -/
def asyncEnds (c : Core) (i : Instr) : Bool :=
  match i with
  | .hwait _ | .barw _ | .mwt _ | .pause _ => true
  | _ => waitsOnFeed c i

/-- A bundle whose issue is under way goes on with the slots that have not committed (R74, R91, R94). -/
def issueRest (s : State) : State :=
  let c := s.core.act
  let ends := match c.bun with
    | some b => (match b.slots with | i :: _ => c.noStop || asyncEnds s.core i | [] => false)
    | none => false
  if c.asyncDue && ends then asyncTrap (s.modCtx fun c => { c with noStop := false })
  else pushSlots (s.modCtx fun c => { c with noStop := false })

/-- Issues the decoded bundle: a pending asynchronous trap first, then a rail trap, then the slots (R94, R342). A word read anew takes the
place of the one that the fetch buffer read first (R254; entry 8, DESIGN CHOICE). -/
def issueSlots (h : Header) (is_ : List Instr) (s0 : State) : State :=
  let c := s0.core.act
  let fresh := s0.core.fetchWordsNew h.mask
  let s := s0.modCore fun k => { k with fetchBuf := (fresh.reverse ++ k.fetchBuf).take 4 }
  let pre : BitVec 7 := match c.bun with
    | some b => b.done &&& h.mask
    | none => 0
  let b : Bundle := { addr := c.pos, cyc := c.vcyc, tick := s.time, mask := h.mask, done := pre, empty := h.empty.val,
                      p := h.p, ctl := none, swr := none,
                      slots := is_.filter fun i => match i.slot? with | some n => !pre.getLsbD n | none => false,
                      bank := (extraTicks (fresh ++ is_.flatMap (ownWords s)), extraTicks fresh) }
  match c.railTrap with
  | w :: ws =>
    if c.asyncDue then
      asyncTrap (s.modCtx fun c => { c with bun := some b, phase := .issuing, noStop := false })
    else superTrap ⟨0x14, 5, w, 0, 0⟩ (s.modCtx fun c => { c with railTrap := ws })
  | [] =>
    let s1 := (s.modCtx fun c => { c with bun := some b, phase := .issuing, noStop := false }).count 1 1
    if c.asyncDue then asyncTrap s1 else pushSlots s1

/-- The bundle at the position is fetched and judged in the order of R94: fetch fault, debug stop, decoding checks,
asynchronous trap (R62-R64, R94, R126, R446). -/
def issueAt (s : State) : State :=
  let a := s.core.act.pos
  match fetchWords a a 4 s with
  | (s1, .wait) => frozenTick s1
  | (s1, .trap t) => superTrap t s1
  | (s0, .ok) =>
    let w := s0.core.code a
    let dbg := s0.core.regsx.dbgctl
    let s1 := s0.modCtx (·.found w s0.time)
    if !s1.core.act.noStop && (s1.core.act.dbgMet || dbg.getLsbD 3 || (dbg.getLsbD 2 && bitOf w 31)) then
      superTrap ⟨0x20, 0, BitVec.ofNat 64 a, 0, 0⟩ (s1.modCtx fun c => { c with noStop := true, dbgMet := false })
    else
      match decodeHeader w with
      | none => superTrap ⟨1, 0, BitVec.ofNat 64 w, 0, 0⟩ s1
      | some h =>
        match fetchWords a a (4 * (1 + maskCount h.mask)) s1 with
        | (s2, .wait) => frozenTick s2
        | (s2, .trap t) => superTrap t s2
        | (s2, .ok) =>
          match decodeSlots s2.core a h.mask [0, 1, 2, 3, 4, 5, 6] 1 with
          | (_, some (sl, x)) => superTrap ⟨2, sl, BitVec.ofNat 64 x, 0, 0⟩ s2
          | (is_, none) => issueSlots h is_ s2

/-- After landing, at the present virtual cycle. -/
def atCycle (s : State) : State :=
  let c := s.core.act
  match c.phase with
  | .drain => if c.flights = [] then s else s.modCtx fun c => { c with vcyc := c.vcyc + 1 }
  | .gap =>
    match c.bun with
    | none => issueAt (goTo c.pos s)
    | some b =>
      if c.vcyc < b.cyc + 1 + b.empty then s.modCtx fun c => { c with vcyc := c.vcyc + 1 }
      else
        let s1 := complete b s
        match s1.core.act.phase with
        | .ready => if s1.core.act.st = .running then issueAt s1 else s1
        | .issuing => issueRest s1
        | _ => s1
  | .ready => issueAt s
  | _ => s

/-- A debug stop that the bundle at the position would take now (R446). -/
def debugAsks (s : State) : Bool :=
  let a := s.core.act.pos
  let dbg := s.core.regsx.dbgctl
  dbg.getLsbD 3 || (dbg.getLsbD 2 && match fetchWords a a 4 s with | (_, .ok) => bitOf (s.core.code a) 31 | _ => false)

/-- A result in flight whose request is a replay entry. -/
def Ctx.heldFlight (c : Ctx) (f : Flight) : Bool := match f.need with | some n => c.replay.contains (replayReq n) | none => false

/-- A tick of a member stopped at a boundary (R79, R81): a debug stop is only recorded. What it has in flight lands at its virtual
cycles, since a shallow frame has no place for it; what a fault holds back does not (entry 14). -/
def stoppedTick (s0 : State) : State :=
  let s := if debugAsks s0 then s0.modCtx fun c => { c with dbgMet := true } else s0
  let c := s.core.act
  let due (f : Flight) : Bool := decide (f.due ≤ c.vcyc) && !c.heldFlight f
  if c.flights.all c.heldFlight then s
  else if c.flights.any fun f => due f && f.need.isSome then frozenTick s
  else s.modCore fun k =>
    landFlights (sortFlights (c.flights.filter due)) []
      { k with act := { k.act with flights := c.flights.filter fun f => !due f, vcyc := c.vcyc + 1 } }

/-- One tick of the core in view (R73, R74, R26, R254). -/
def coreTick (s : State) : State :=
  let c := s.core.act
  if c.st ≠ .running then s
  else if c.phase = .boundary then stoppedTick s
  else if (s.part c.part).throttled || c.replay != [] then frozenTick s
  else if s.time < c.bankUntil ∧ c.phase ≠ .issuing then frozenTick s
  else
    match c.phase with
    | .boundary | .drained => s
    | .issuing => issueRest s
    | _ =>
      let s1 := s.modCore (·.takeSwr s.time (s.part c.part).cap)
      if s1.core.act.missing then frozenTick s1 else atCycle (landDue s1)

/-- BUNDLE_ISSUE: the core of the key has its tick (R90, R94). -/
def execBundleIssue (k : CoreKey) (s : State) : Res := .next (settle s (coreTick (s.focus k)))

/-- RESULT_LANDS: the results due at the core's virtual cycle land (R43), after an SWR that takes effect at it (R99, R147). -/
def execResultLands (k : CoreKey) (s : State) : Res :=
  let s1 := s.focus k
  if s1.core.act.st = .running ∧ s1.core.act.phase ≠ .issuing ∧ s1.core.act.missing = false then
    .next (settle s (landDue (s1.modCore (·.takeSwr s1.time (s1.part s1.core.act.part).cap))))
  else .next s

/-- ASYNC_TRAP_TAKEN: the asynchronous trap ends an interruptible freeze or is taken at a bundle's issue (R94). -/
def execAsyncTrapTaken (k : CoreKey) (s : State) : Res :=
  let s1 := s.focus k
  let c := s1.core.act
  let waits := match c.bun with
    | some b => c.phase == .issuing && (b.done == 0 || b.slots.any (asyncEnds s1.core))
    | none => false
  if c.st = .running ∧ c.asyncDue = true ∧ waits = true then .next (settle s (asyncTrap s1)) else .next s

end Sys2Proof.Machine
end

