-- ==== Sys2Proof/Machine/TagRegion.lean ====
section
/-! DEFINITION. The tag table and the write-back of regions (R259-R263, R272-R275). -/

namespace Sys2Proof.Machine

/-- Set and key of a GVA (R272). -/
def tagSet (a : Word) : Nat := fld a.toNat 11 6
def tagKey (a : Word) : Nat := a.toNat / 2 ^ 11

/-- The entry of a key; the list of ways stands newest first. -/
def Core.tagFind (c : Core) (a : Word) : Option TagWay :=
  c.tags.find? fun w => w.set == tagSet a && w.key == tagKey a

/-- Makes a way the newest of the table. -/
def tagNewest (w : TagWay) (ts : List TagWay) : List TagWay :=
  w :: ts.filter fun t => !(t.set == w.set && t.way == w.way)

/-- TAGI on the table (R274): the slot of the key, the lowest empty way, or the oldest way. -/
def Core.tagInstall (c : Core) (a : Word) (slot : Nat) : Core :=
  let used := c.tags.filter fun w => w.set == tagSet a
  let way := match c.tagFind a with
    | some w => w.way
    | none =>
      match (List.range 8).find? fun n => !(used.any fun w => w.way == n) with
      | some n => n
      | none => match used.getLast? with | some w => w.way | none => 0
  { c with tags := tagNewest ⟨tagSet a, way, tagKey a, slot⟩ c.tags }

/-- TAGL (R274). -/
def execTagl (r : RegU) (s : State) : Res :=
  slotOp 2 r.g (fun s =>
    match s.core.tagFind (s.src r.a) with
    | some w =>
      landS 2 2 r.wb r.d (BitVec.ofNat 64 w.slot) (s.modCore fun c => { c with tags := tagNewest w c.tags })
    | none => landS 2 2 r.wb r.d 0xFFFFFFFF s) s

/-- TAGI (R274). -/
def execTagi (r : RegN) (s : State) : Res :=
  slotOp 2 r.g (fun s =>
    let b := s.src r.b
    if 1535 < b.toNat then trapAt 2 9 b s
    else commit 2 (s.modCore fun c => c.tagInstall (s.src r.a) b.toNat)) s

/-- TAGX (R274). -/
def execTagx (r : RegO) (s : State) : Res :=
  slotOp 2 r.g (fun s =>
    commit 2 (s.modCore fun c =>
      { c with tags := c.tags.filter fun w => !(w.set == tagSet (s.src r.a) && w.key == tagKey (s.src r.a)) })) s

/-! ### Write-back -/

/-- Sends the 32 line stores of a granule whose page is at `pa` (R260, R261). -/
def sendGranule (g : Nat) (gva : Word) (pa slot : Nat) (s : State) : State :=
  (List.range 32).foldl (fun s i =>
    let r := { mkReq s (.fillBack g) (gva + BitVec.ofNat 64 (128 * i)) (pa + 128 * i) 128 with slot := slot }
    sendReq r (addTok ⟨r.id, true, false, 0, false, false⟩ s.drawn)) s
  |>.modCore fun c => { c with gran := insertK c.gran g (.writing 32 (match c.granSt g with | .writing _ b => b | _ => false)) }

/-- The slot that a fault of a write-back names: 6 for those that END starts once its drain is over, 2 for those that RGWB has started (R92,
R262). -/
def wbSlot (s : State) : Nat := match s.core.act.phase with | .drained => 6 | _ => 2

/-- A write-back met a translation fault (R263): the context traps, or during a save a record is written and the
granule waits. -/
def wbFault (g : Nat) (gva : Word) (r l : Nat) (saving : Bool) (s : State) : State :=
  let s1 := s.modCore fun c => { c with gran := insertK c.gran g .dirty }
  if saving then
    (fun (t : State) => t.modCtx fun c => { c with replay := c.replay ++ [replayGran g] }) <|
    pushRecord s.core.act.part
      { cause := 0x45, slot := wbSlot s, ctxid := s.core.act.id s.key, time := s.time, pos := BitVec.ofNat 64 s.core.act.pos,
        einfo := gva, gva := gva, detail0 := BitVec.ofNat 64 (r * 256 + l), detail1 := 0, stopped := true } s1
  else
    landingTrap { code := 0x11, slot := wbSlot s, einfo := gva, gva := gva, detail0 := BitVec.ofNat 64 (r * 256 + l) }
      (some (replayGran g)) s1

/-- The gang of the core in view is being saved. -/
def State.saving (s : State) : Bool :=
  match s.gang? s.core.act.gid with
  | some g => g.saving
  | none => false

/-- Starts or goes on with the write-back of granule `g` (R260, R263); one that goes on keeps the mark of a write made while it waited. -/
def writeBack (g : Nat) (s : State) : State :=
  match s.core.regionAt (4096 * g) with
  | none => s
  | some (_, r) =>
    let gva := r.gva + BitVec.ofNat 64 (4096 * g - r.spa)
    let again := match s.core.granSt g with | .writing _ b => b | _ => false
    let s1 := s.modCore fun c => { c with gran := insertK c.gran g (.writing notYetSent again) }
    if !s.ownDevice (peerOf gva) then wbFault g gva 4 0 s.saving s1
    else
      match translate (vaOf gva) true s1 with
      | (s2, .hit pa) => sendGranule g gva pa (wbSlot s) s2
      | (s2, .wait) => s2
      | (s2, .fault r l) => wbFault g gva r l s.saving s2

/-- Granules of write-back regions, of descriptor `a` or of all with `a` = 64 (R275), that are DIRTY. -/
def Core.dirtyGrans (c : Core) (a : Nat) : List Nat :=
  (List.range 768).filter fun g =>
    match c.regionAt (4096 * g) with
    | some (i, r) => (r.mode == 1 || r.mode == 2) && (a == 64 || a == i) && c.granSt g == .dirty
    | none => false

/-- RGWB (R275). -/
def execRgwb (r : RegO) (s : State) : Res :=
  slotOp 2 r.g (fun s =>
    let a := s.src r.a
    if 64 < a.toNat then trapAt 2 9 a s
    else (s.core.dirtyGrans a.toNat).foldl (fun s g => writeBack g s) (commit 2 s)) s

end Sys2Proof.Machine
end

