-- ==== Sys2Proof/Machine/Home.lean ====
section
/-! DEFINITION. Requests at the home slice, at a peer's scratchpad, and back at the core: line order, acknowledgements
and replies (R220-R242, R255, R256, R293, R443). -/

namespace Sys2Proof.Machine

/-! ### The context's bounds on its loads (R227) -/

/-- Key of an own write of class `cls` to a byte; class 4 stands for loads. -/
def seenKey (pa cls : Nat) : Nat := pa * 8 + cls

/-- Stamps that the context's earlier accesses set for a load of byte `pa` by class `cls` (R227 items 1 and 2, R236). -/
def Ctx.bound (c : Ctx) (pa : Nat) (cls : Fin 4) : Nat :=
  let own := (List.range 4).map fun w =>
    if w = 0 ∨ cls = 0 ∨ w = cls.val then lookupD c.seen (seenKey pa w) 0 else 0
  (own ++ [lookupD c.seen (seenKey pa 4) 0]).foldl Nat.max 0

/-- Records the stamp of an access to bytes [pa, pa + n). -/
def Ctx.note (c : Ctx) (pa n cls x : Nat) : Ctx :=
  { c with seen := (List.range n).foldl (fun l i => insertK l (seenKey (pa + i) cls) x) c.seen }

/-- Changes the context that issued a request. -/
def State.modIssuer (s : State) (r : Req) (f : Ctx → Ctx) : State := s.modAt r.key fun c => { c with act := f c.act }

/-- Whether a request addresses a peer's scratchpad. -/
def ReqKind.isPeer : ReqKind → Bool
  | .peerLoad _ | .peerStore _ => true
  | _ => false

/-! ### At the home slice -/

/-- Home slice of a request (R220). -/
def Req.home (r : Req) (s : State) : Nat := s.home r.part (vaOf r.gva)

/-- New value of an ATOM (R234). -/
def atomNew (op : AtomOp) (n old v : Nat) : Nat :=
  let m := 2 ^ (8 * n)
  match op with
  | .add => (old + v) % m
  | .min => if sInt (8 * n) old ≤ sInt (8 * n) v then old else v
  | .max => if sInt (8 * n) old ≤ sInt (8 * n) v then v else old
  | .and => Nat.land old v
  | .or => Nat.lor old v
  | .xor => Nat.xor old v
  | .xchg => v

/-- New value of a COPYR element step (R293): subnormals are kept, no flag is set, and a NaN is canonical (R137). -/
def reduceNew (op rtype n old v : Nat) : Nat :=
  let f := if rtype = 2 then Fmt.f32 else Fmt.bf16
  let plain (x : Nat) : Nat := if 2 ≤ rtype ∧ f.decode x = .nan then f.nan else x
  if op = 1 then if rtype < 2 then (old + v) % 2 ^ (8 * n) else (f.add .rne 0 (f.decode old) (f.decode v)).1
  else if op = 2 then
    if rtype = 0 then (if sInt 32 old ≤ sInt 32 v then old else v) else if rtype = 1 then Nat.min old v
    else (f.minmax false false false old v).1
  else if op = 3 then
    if rtype = 0 then (if sInt 32 old ≤ sInt 32 v then v else old) else if rtype = 1 then Nat.max old v
    else (f.minmax true false false old v).1
  else if op = 4 then plain (Nat.land old v)
  else plain (Nat.lor old v)

/-- A write of a request takes its place in the line's order; the context notes its stamp. -/
def applyWrite (r : Req) (bs : List Byte) (data : Nat) (okay : Bool) (s : State) : State :=
  let s0 := refillLine r.pa s
  let s1 := ((s0.reached (r.home s) r.pa).sliceWrite r.pa bs).fillMarked r.pa
  (s1.modIssuer r fun c => c.note r.pa r.size r.cls.val s1.stamp).modReq r.id fun q =>
    { q with applied := true, bad := 0, okay := okay, refill := (s0.line r.pa).filled.restarted, tag := (s1.line r.pa).tag, data := data }

/-- A load, of which the trace holds no record: the mark of a fill waits for the next access that it records (R223, R443). -/
def Req.untraced (r : Req) : Bool := r.kind == .load || r.kind == .lda

/-- A read of a request returns a value that stood at stamp `x`; the context notes it. -/
def applyRead (r : Req) (x data : Nat) (s : State) : State :=
  let s1 := s.reached (r.home s) r.pa
  let s2 := if r.untraced then s1 else s1.fillMarked r.pa
  (s2.modIssuer r fun c => c.note r.pa r.size 4 x).modReq r.id fun q =>
    { q with applied := true, bad := 0, okay := false, refill := (s.line r.pa).filled.restarted, tag := (s.line r.pa).tag, data := data }

/-- A request that its target refuses. -/
def applyBad (r : Req) (b : Nat) (s : State) : State := s.modReq r.id fun q => { q with bad := b }

/-- A plain load: one of the values that R227 leaves open, all bytes as they stood at one stamp (R222). The acquire points that bound it
are those before its issue (R229), `least`. -/
def applyLoad (r : Req) (s : State) : State :=
  let c := (s.coreAt r.key).act
  let least := ((List.range r.size).map fun i => c.bound (r.pa + i) r.cls).foldl Nat.max r.least
  let x := s.pickStamp r.pa r.size least s.seed
  applyRead r x (ofBytes ((List.range r.size).map fun i => s.asOf (r.pa + i) x)) s.drawn

/-- Bytes that a copy has written count at the core of its engine (R438). -/
def copyWritten (r : Req) (s : State) : State := s.modAt r.key fun c => c.count 10 r.size

/-- One request at its home slice (R221-R235, R242, R293). -/
def applyAtHome (r : Req) (s : State) : State :=
  let old := ofBytes (s.rdN r.pa r.size)
  match r.kind with
  | .load => if s.lineBad r.pa then applyBad r 0x13 s else applyLoad r s
  | .lda => if s.lineBad r.pa then applyBad r 0x13 s else applyRead r s.stamp old s
  | .store | .stl => applyWrite r (toBytes r.size r.data) r.data false s
  | .atom op =>
    if s.lineBad r.pa then applyBad r 0x13 s
    else
      let s1 := applyWrite r (toBytes r.size (atomNew op r.size old r.data)) old true s
      s1.modIssuer r fun c => c.note r.pa r.size 4 s1.stamp
  | .cas cmp =>
    if s.lineBad r.pa then applyBad r 0x13 s
    else if old = cmp.toNat % 2 ^ (8 * r.size) then
      let s1 := applyWrite r (toBytes r.size r.data) old true s
      s1.modIssuer r fun c => c.note r.pa r.size 4 s1.stamp
    else applyRead r s.stamp old s
  | .copyWrite _ _ mask _ =>
    copyWritten r (applyWrite r (maskBytes mask (s.rdN r.pa r.size) (toBytes r.size r.data)) r.data false s)
  | .copyReduce _ op rtype =>
    if s.lineBad r.pa then applyBad r 6 s
    else copyWritten r (applyWrite r (toBytes r.size (reduceNew op rtype r.size old r.data)) r.data false s)
  | .fillBack g => applyWrite r ((s.coreAt r.key).spRead (4096 * g + r.gva.toNat % 4096) r.size) r.data false s
  | _ => s

/-- The message that answers a request. -/
def replyEvent (r : Req) : Instr :=
  match r.kind with
  | .load | .lda | .atom _ | .cas _ | .peerLoad _ => .loadReply r.id
  | .store | .stl | .fillBack _ | .peerStore _ => .storeAck r.id
  | .copyWrite _ _ _ _ | .copyReduce _ _ _ => .copyWriteAck r.key r.id

/-- Beats of columns 1-14 carry a request whose home slice stands on another ply (R221, R356). -/
def Req.crosses (r : Req) (s : State) : Bool := slicePly (r.home s) != r.key.cl.val / 2

/-- A consuming access (R27, R242). -/
def ReqKind.consumes : ReqKind → Bool
  | .load | .lda | .atom _ | .cas _ => true
  | _ => false

/-- A beat of the request has exhausted its retries (R27, R356, entry 86); retries that succeed are part of its free ticks. -/
def Req.beatLost (r : Req) (s : State) : Bool := r.kind.consumes && r.crosses s && Config.beatLost s.seed

/-- The plan gives the request's partition the slots that it needs (R361). -/
def Req.mayGo (r : Req) (s : State) : Bool := s.planned (s.stations (plyOf r.key.cl.val).val r.part (vaOf r.gva) r.pa) r.part.val

/-- HOME_SLICE_APPLY (R221). A request waits for tokens to enter the mesh (R428), for slots of the plan (R361), and for the earlier ones of
its context that it is ordered after. -/
def execHomeSliceApply (id : Nat) (s : State) : Res :=
  .next (settle s (match s.req? id with
    | none => s
    | some r =>
      if r.applied || r.remote.isSome then s
      else if s.blocked r || !r.mayGo s then s.at (s.time + 1) (.homeSliceApply id)
      else
        match s.inject r with
        | none => s.at (s.time + 1) (.homeSliceApply id)
        | some s =>
          if r.beatLost s then (applyBad r 0x13 s.drawn).later 1 (replyEvent r) else (applyAtHome r s).later 1 (replyEvent r)))

/-! ### At a peer's scratchpad -/

/-- A peer access refused by a page fault at `gva` of the peer (R256). -/
def applyFault (r : Req) (gva : Word) (reason level : Nat) (s : State) : State :=
  s.modReq r.id fun q => { q with bad := 0x10000 + reason * 256 + level, fault := gva }

/-- The peer's answer: the bytes, or none yet, or the reason of a refusal. -/
def peerServe (r : Req) (s : State) : State × Option Nat :=
  match r.kind with
  | .peerLoad _ =>
    match touch r.pa r.size s with
    | (s1, .wait) => (s1, none)
    | (s1, .fault g rs lv) => (if rs = errorReason then applyBad r 0x13 s1 else applyFault r g rs lv s1, some 0)
    | (s1, .ok) =>
      let x := s1.spLook unfenced r.pa r.size
      (if s1.core.badAt r.pa r.size then applyBad r 0x13 s1
       else x.2.modReq r.id fun q => { q with applied := true, bad := 0, data := ofBytes x.1 }, some 0)
  | .peerStore _ =>
    if s.core.roHit r.pa r.size then (applyFault r (s.core.gvaOf r.pa) 2 0 s, some 0)
    else
      match touch r.pa r.size s with
      | (s1, .wait) => (s1, none)
      | (s1, .fault g rs lv) => if rs = errorReason then (s1, none) else (applyFault r g rs lv s1, some 0)
      | (s1, .ok) =>
        ((s1.modCore fun c => c.spWrite r.pa (toBytes r.size r.data)).modReq r.id fun q =>
          { q with applied := true, bad := 0 }, some 0)
  | .copyWrite _ _ mask _ =>
    match touch r.pa r.size s with
    | (s1, .wait) => (s1, none)
    | (s1, .fault _ rs _) => (applyBad r (copyReason rs) s1, some 0)
    | (s1, .ok) => (copyWritten r ((padWrite r mask s1).modReq r.id fun q => { q with applied := true, bad := 0 }), some 0)
  | _ => (s, some 0)

/-- The core whose scratchpad a request addresses. -/
def Req.pad (r : Req) : CoreKey :=
  match r.kind with
  | .peerLoad k | .peerStore k => k
  | .copyWrite _ _ _ k => k.getD r.key
  | _ => r.key

/-- PEER_ACCESS (R255, R256): the answer takes 6 + d ticks. A granule that is being filled, and an earlier access to the
same bytes, are waited for. -/
def execPeerAccess (id : Nat) (s : State) : Res :=
  .next (settle s (match s.req? id with
    | none => s
    | some r =>
      if r.applied then s
      else if s.blocked r then s.at (s.time + 1) (.peerAccess id)
      else
        match peerServe r (s.focus r.pad) with
        | (s1, none) => s1.at (s.time + 1) (.peerAccess id)
        | (s1, some _) => s1.at (s.time + 6 + stripDist r.key r.pad) (replyEvent r)))

/-! ### Back at the core -/

/-- Completes the results in flight that wait for `id` (R43, R92): those of the running code and those that a local
handler withholds. -/
def fillFlight (id : Nat) (f : Flight → Flight) (s : State) : State :=
  let g (l : List Flight) : List Flight := l.map fun x => if x.need = some id then f x else x
  s.modCtx fun c => { c with flights := g c.flights, save := c.save.map fun v => { v with flights := g v.flights } }

/-- A result that has arrived, with its value in the register it names and in the latches. -/
def Flight.fill (x : Word) (ref : Option Refresh) (f : Flight) : Flight :=
  { f with need := none, latch := some (latchOf x), refresh := ref,
           writes := f.writes.map fun w => match w with | .s i _ => .s i x | w => w }

/-- As `Flight.fill`, for a 256-byte result. -/
def Flight.fillV (x : Vec) (f : Flight) : Flight :=
  { f with need := none, latch := some x, writes := f.writes.map fun w => match w with | .v i _ => .v i x | w => w }

/-- A result whose operation traps takes effect at the virtual cycle where the trap was found (R92). -/
def delayFlight (id : Nat) (s : State) : State :=
  let v := s.core.act.vcyc
  s.modCtx fun c => { c with flights := c.flights.map fun f => if f.need = some id then { f with due := v } else f }

/-- Code, EINFO, GVA and DETAIL0 of the landing-time trap of a refused request (R92, R242, R256, R414). -/
def badTrap (r : Req) : Trap :=
  if r.bad = 0x13 then ⟨0x13, r.slot, r.gva, if r.kind.isPeer then 0 else r.gva, 0⟩
  else if 0x10000 ≤ r.bad then accessTrap r.slot r.gva r.fault ((r.bad - 0x10000) / 256) ((r.bad - 0x10000) % 256)
  else ⟨0x12, r.slot, r.gva, r.gva, BitVec.ofNat 64 (r.bad * 256)⟩

/-- Forgets a request that has been answered. -/
def finishReq (id : Nat) (s : State) : State :=
  clearReplay (replayReq id) ((s.dropReq id).modCore fun c => { c with toks := c.toks.filter fun t => t.id != id })

/-- The request is kept for its replay, and the context takes the trap (R92); a context that was KILLed meanwhile takes
none. -/
def badReply (r : Req) (s : State) : State :=
  if s.core.act.st = .done ∨ s.core.act.gid ≠ r.ctx then finishReq r.id s
  else
    landingTrap (badTrap r) (some (replayReq r.id))
      (delayFlight r.id (s.modReq r.id fun q => { q with bad := 0, applied := false, held := true }))

/-- The acquire refresh of a reply (R229, R235). -/
def Req.refresh (r : Req) (stamp : Nat) : Option Refresh :=
  let acq := match r.kind with
    | .cas _ => if r.okay then r.acq else r.acqFail
    | _ => r.acq
  if acq then some ⟨r.scope, stamp⟩ else none

/-- A load's or an atomic's answer reaches its core (R226, R229, R242). -/
def loadReply (r : Req) (s : State) : State :=
  if r.bad ≠ 0 then badReply r s
  else if !r.applied then s
  else
    let s1 := match r.kind with
      | .atom _ | .cas _ => traceMem r s
      | _ => s
    let f := if r.size = 256 then Flight.fillV (BitVec.ofNat 2048 r.data)
             else Flight.fill (extend r.size r.sext r.data) (r.refresh s.stamp)
    finishReq r.id (fillFlight r.id f s1)

/-- LOAD_REPLY (R226, R242). -/
def execLoadReply (id : Nat) (s : State) : Res :=
  .next (settle s (match s.req? id with
    | none => s
    | some r => loadReply r (s.focus r.key)))

/-- One of the stores of a granule's write-back is acknowledged (R260). -/
def granuleAcked (g : Nat) (s : State) : State :=
  match s.core.granSt g with
  | .writing n again =>
    let st := if n ≤ 1 then (if again then Gran.dirty else .clean) else .writing (n - 1) again
    let s1 := (s.modCore fun c => { c with gran := insertK c.gran g st }).count 6 (if n ≤ 1 then 1 else 0)
    if n ≤ 1 then clearReplay (replayGran g) s1 else s1
  | _ => s

/-- A store's acknowledgement reaches its core (R224). -/
def storeAck (r : Req) (s : State) : State :=
  if r.bad ≠ 0 then badReply r s
  else if !r.applied then s
  else
    let s1 := finishReq r.id (if r.kind.isPeer then s else traceMem r s)
    match r.kind with
    | .fillBack g => granuleAcked g s1
    | _ => s1

/-- STORE_ACK (R224, R242). -/
def execStoreAck (id : Nat) (s : State) : Res :=
  .next (settle s (match s.req? id with
    | none => s
    | some r => storeAck r (s.focus r.key)))

/-- A replay entry that is a request is sent again (R92). -/
def resendReq (id : Nat) (s : State) : State :=
  match s.req? id with
  | none => s
  | some r =>
    match r.kind with
    | .peerLoad k | .peerStore k => (s.modReq id fun q => { q with held := false }).later (6 + stripDist r.key k) (.peerAccess id)
    | _ => if r.remote.isSome then
             ((s.modReq id fun q => { q with sent := 0, issue := s.time, held := false, injected := false }).later 1 (.remoteRequest (.leaves id))).at
               (s.time + 2 ^ 20) (.remoteTimeout id)
           else (s.modReq id fun q => { q with held := false, injected := false }).later 1 (.homeSliceApply id)

end Sys2Proof.Machine
end

