-- ==== Sys2Proof/Machine/HostLink.lean ====
section
/-! DEFINITION. The host's window BAR-B: posted writes with their watermark, and reads (R240, R241, R424). -/

namespace Sys2Proof.Machine

/-- Highest address of device memory, exclusive (R493). -/
def memTop : Nat := 768 * 2 ^ 30

/-- The host link answers a configuration read with Configuration Request Retry Status until step 8 (R23). -/
def State.configRetries (s : State) : Bool := decide (s.bringUp < 8)

/-- Partition of a function's VF, none for the PF (R423). -/
def vfPart (fn : Fin 25) : Option (Fin 24) := if fn = 0 then none else some (Fin.ofNat 24 (fn.val - 1))

/-- Partition-local address of an offset of a VF's BAR-B (R424). -/
def bwinVa (p : Part) (off : Nat) : Nat := (p.bwin.toNat + off) % 2 ^ 52

/-- What the bridge's translation of every page of a request answers: the physical address of each byte, a wait, or the
lowest address that faults, with reason and level (R424). -/
inductive Bridged where
  | ok (pas : List Nat)
  | wait
  | fault (va reason level : Nat)
  deriving DecidableEq, Repr

/-- One byte's translation. -/
def bridgeByte (s : State) (pn : Fin 24) (write : Bool) (va : Nat) : Bridged :=
  match s.walk pn va with
  | .leaf l => if write && !l.w then .fault va 2 (if l.big then 2 else 3) else .ok [l.pa_ va]
  | .fault r lv => .fault va r lv
  | .migrating => .wait

/-- Joins the answers of the bytes in ascending order: the first fault decides, then a wait. -/
def bridgeJoin : List Bridged → Bridged
  | [] => .ok []
  | .fault v r l :: _ => .fault v r l
  | .wait :: t => match bridgeJoin t with | .fault v r l => .fault v r l | _ => .wait
  | .ok a :: t => match bridgeJoin t with | .ok b => .ok (a ++ b) | x => x

/-- Translation of a request of function `fn` (R424). -/
def bridge (fn : Fin 25) (write : Bool) (off n : Nat) (s : State) : Bridged :=
  match vfPart fn with
  | none => .ok ((List.range n).map (off + ·))
  | some pn => bridgeJoin ((List.range n).map fun i => bridgeByte s pn write (bwinVa (s.part pn) (off + i)))

/-- The record of a VF request that faults (R424). -/
def bridgeRecord (fn : Fin 25) (va reason level : Nat) (s : State) : State :=
  match vfPart fn with
  | none => s
  | some pn => pushRecord pn
      { cause := 0x11, slot := 0, ctxid := 0, time := s.time, pos := 0, einfo := BitVec.ofNat 64 va, gva := BitVec.ofNat 64 va,
        detail0 := BitVec.ofNat 64 (reason * 256 + level), detail1 := 0, stopped := false } s

/-- Numbers a posted write of a function (R240). -/
def numberWrite (fn : Nat) (cells : List Host.Cell) (pend : Option (Nat × List Byte × Nat)) (s : State) : State :=
  let n := lookupD s.hostN fn 0 + 1
  { s with hostN := insertK s.hostN fn n, hostW := s.hostW ++ [⟨fn, n, cells, pend⟩] }

/-- A posted write reaches the bridge (R240, R424): bytes above the device's memory are discarded. -/
def hostPosted (fn : Fin 25) (off : Nat) (data : List Byte) (s : State) : State :=
  match bridge fn true off data.length s with
  | .fault va r l => bridgeRecord fn va r l s.drawn
  | .wait => numberWrite fn.val [] (some (off, data, s.time + 256)) s.drawn
  | .ok pas => numberWrite fn.val ((pas.zip data).filter fun c => decide (c.1 < memTop)) none s.drawn

/-- HOST_POSTED_WRITE (R240). -/
def execHostPostedWrite (fn : Fin 25) (off : Nat) (data : List Byte) (s : State) : Res :=
  .next (settle s (hostPosted fn off data s))

/-- A write that waits for a STATE 2 entry is translated again every 256 ticks (R266). -/
def retryHostWrite (w : HostWrite) (s : State) : State :=
  match w.pend with
  | none => s
  | some (off, data, due) =>
    if s.time < due then s
    else
      let set (x : HostWrite) : State :=
        { s.drawn with hostW := s.hostW.map fun y => if y.fn = w.fn ∧ y.num = w.num then x else y }
      match bridge (Fin.ofNat 25 w.fn) true off data.length s with
      | .fault va r l => bridgeRecord (Fin.ofNat 25 w.fn) va r l (set { w with pend := none })
      | .wait => set { w with pend := some (off, data, s.time + 256) }
      | .ok pas => set { w with cells := (pas.zip data).filter fun c => decide (c.1 < memTop), pend := none }

/-- The watermark of a function: the greatest n such that writes 1 to n have all reached their slices (R240). -/
def State.watermark (s : State) (fn : Nat) : Nat :=
  match (s.hostW.filter fun w => w.fn == fn && w.pend.isSome).map fun w => w.num with
  | [] => lookupD s.hostN fn 0
  | n :: ns => ns.foldl Nat.min n - 1

/-- Splits cells into runs that lie in one line and are consecutive. -/
def lineRuns : List Host.Cell → List (Nat × List Byte)
  | [] => []
  | (a, b) :: t =>
    match lineRuns t with
    | (k, bs) :: rest => if k = a + 1 ∧ k / 128 = a / 128 then (a, b :: bs) :: rest else (a, [b]) :: (k, bs) :: rest
    | [] => [(a, [b])]

/-- A held write is applied in its lines' order (R240, R221). -/
def applyHostWrite (w : HostWrite) (s : State) : State :=
  (lineRuns w.cells).foldl (fun s r => ((refillLine r.1 s).reached (s.homeAny r.1) r.1).sliceWrite r.1 r.2) s

/-- A watermark of a function reaches the slices (R240). -/
def applyWatermark (fn n : Nat) (s : State) : State :=
  let due := s.hostW.filter fun w => w.fn == fn && decide (w.num ≤ n)
  let s1 := due.foldl (fun s w => applyHostWrite w s) s
  { s1 with hostW := s1.hostW.filter fun w => !(w.fn == fn && decide (w.num ≤ n)),
            hostMark := insertK s1.hostMark fn (Nat.max n (lookupD s1.hostMark fn 0)) }

/-- A byte as a host read finds it at its slice: that of a marked line is open (R28). -/
def hostByte (s : State) (i pa : Nat) : Byte :=
  if memTop ≤ pa then 0xFF else if s.lineBad pa then BitVec.ofNat 8 (Config.pick (s.seed + 32 * i)) else s.rd pa

/-- A host read (R241, R424). -/
def hostReadB (fn : Fin 25) (off n : Nat) (s : State) : State :=
  match bridge fn false off n s with
  | .fault va r l => let s1 := bridgeRecord fn va r l s.drawn
                     { s1 with out := s1.out ++ [.readAbort fn.val] }
  | .wait => s.drawn.at (s.time + 256) (.hostRead fn off n)
  | .ok pas => { s with out := s.out ++ [.readData fn.val (pas.mapIdx fun i pa => hostByte s i pa)], draws := s.draws + n + 1 }

/-- HOST_READ (R241). -/
def execHostRead (fn : Fin 25) (off n : Nat) (s : State) : Res := .next (settle s (hostReadB fn off n s))

end Sys2Proof.Machine
end

