-- ==== Sys2Proof/Machine/ClearingEvents.lean ====
section
/-! DEFINITION. The Clearing's own steps: beats of column 0, their application and retransmission, resynchronisation,
the slot plan and the allocations (R355-R371, R375, R434). -/

namespace Sys2Proof.Machine

/-! ### Sending (R361, R363-R365) -/

/-- Counts an event at the cores that the entries name. -/
def countEntries (e : Fin 25) (es : List CEntry) (s : State) : State :=
  es.foldl (fun s x => match x.key with | some k => s.modAt k (·.count e 1) | none => s) s

/-- Counts an event of a beat at every core that has an entry in it, once for each (R438). -/
def countBeat (e : Fin 25) (es : List CEntry) (s : State) : State :=
  ((es.filterMap fun x => x.key).eraseDups).foldl (fun s k => s.modAt k (·.count e 1)) s

/-- A beat leaves in this tick; it is applied at the end of tick s + 4 (R364). -/
def launchBeat (station part : Nat) (es : List CEntry) (s : State) : State :=
  let b : Beat := { id := s.newId, station := station, part := part, sent := s.time, entries := es, failed := false }
  { s.drawn with clr := { s.clr with beats := s.clr.beats ++ [b] } }.at (s.time + 4) (.beatApplied b.id)

/-- A beat of the partition from the station is under way: its outcome is not yet known (R364). -/
def State.beatOut (s : State) (station part : Nat) : Bool :=
  s.clr.beats.any fun b => b.station == station && b.part == part

/-- The beat that the station must send again first (R365). -/
def State.resendOf (s : State) (station part : Nat) : Option Beat :=
  s.clr.resend.find? fun b => b.station == station && b.part == part

/-- Sends what the slot carries: a retransmission first, else the given entries. -/
def sendSlot (station part : Nat) (fresh : State → List CEntry × State) (s : State) : State :=
  if s.beatOut station part then s
  else
    match s.resendOf station part with
    | some b =>
      launchBeat station part b.entries
        (countBeat 20 b.entries { s with clr := { s.clr with resend := s.clr.resend.filter fun x => x.id != b.id } })
    | none =>
      let r := fresh s
      if r.1 = [] then s else launchBeat station part r.1 r.2

/-- Queue order: entry tick, then (SIDE, CSLOT), then arrival (R363). -/
def queueOrder (qs : List CQueued) : List CQueued :=
  qs.sortBy fun a b =>
    decide (a.at_ < b.at_) || (a.at_ == b.at_ && decide (a.e.cl % 2 * 128 + a.e.csl ≤ b.e.cl % 2 * 128 + b.e.csl))

/-- The entry's context pauses (R351). -/
def CQueued.pausing (s : State) (q : CQueued) : Bool :=
  match q.e.key with
  | some k => (s.coreAt k).pausing s.time
  | none => false

/-- Entries in queue order, those of pausing contexts below all others (R351, entry 91). -/
def rankedQueue (s : State) (qs : List CQueued) : List CQueued :=
  let o := queueOrder qs
  (o.filter fun q => !q.pausing s) ++ o.filter (CQueued.pausing s)

/-- An entry of a context that a QFENCE still holds (R312). -/
def entryHeld (s : State) (e : CEntry) : Bool :=
  match e.key with
  | some k => fenceBlocks (s.focus k) 6 e.req
  | none => false

/-- The oldest entries of the partition's queue at the station, up to 16 (R364). -/
def takeEntries (station part : Nat) (s : State) : List CEntry × State :=
  let ready := rankedQueue s (s.clr.queue.filter fun q => q.station == station && q.part == part && decide (q.at_ ≤ s.time))
  let es := ((ready.takeWhile fun q => !entryHeld s q.e).take 16).map fun q => q.e
  (es, countEntries 19 es { s with clr := { s.clr with
    queue := s.clr.queue.filter fun q => !(q.station == station && q.part == part && es.contains q.e) } })

/-- A root entry (R357). -/
def rootEntry (kind addr : Nat) (data : Word) : CEntry :=
  { cl := 0, csl := 0, kind := kind, op := 0, dbl := true, addr := addr, data := data, word := 0, req := 0, key := none }

/-- Entries queued before the held bytes took effect have all been applied (R434). -/
def heldReady (s : State) (p : Nat) (after : Nat) : Bool :=
  !(((s.clr.queue.filter fun q => q.part == p).map fun q => q.e) ++
    (((s.clr.beats ++ s.clr.resend).filter fun b => b.part == p).flatMap fun b => b.entries)).any fun e => decide (e.req < after)

/-- The next doublewords that the root zeroes (R434). -/
def zeroEntries (s : State) : List CEntry :=
  (((List.finRange 24).filter fun p => heldReady s p.val (s.part p).heldAfter).flatMap fun p =>
    (s.part p).held.flatMap fun r => (List.range (Nat.min 16 ((r.2 - r.1) / 8))).map fun i => rootEntry 1 (r.1 + 8 * i) 0).take 16

/-- Sends the column-0 beat of the present slot (R361, R364; slot 16 is the root's zeroing, R434). -/
def clearingSend (s : State) : State :=
  let e := planEntry s.clr.active 0 s.slot
  if s.slot = 0 ∨ s.slot = 32 then s
  else if s.slot = 16 then sendSlot 12 31 (fun s => (zeroEntries s, s)) s
  else if planStn e = 15 then s
  else sendSlot (planStn e) (planPart e) (takeEntries (planStn e) (planPart e)) s

/-- CLEARING_BEAT_SEND (R364). -/
def execClearingBeatSend (s : State) : Res := .next (settle s (clearingSend s))

/-- The root's watermark beat: functions 0-15 in slot 0, 16-24 in slot 32 (R240, R360). -/
def watermarkSend (late : Bool) (s : State) : State :=
  let fns := (List.range 25).filter fun f => (decide (16 ≤ f)) == late
  let es := fns.filterMap fun f =>
    if s.watermark f = 0 then none else some (rootEntry 3 f (BitVec.ofNat 64 (s.watermark f)))
  if s.slot = (if late then 32 else 0) then sendSlot 12 31 (fun s => (es, s)) s else s

/-- HOST_WATERMARK_BEAT (R240). -/
def execHostWatermarkBeat (late : Bool) (s : State) : Res := .next (settle s (watermarkSend late s))

/-! ### Application (R364-R366, R375) -/

/-- New value of a CXCH (R375). -/
def cxchNew (op n old v : Nat) : Nat :=
  match op with
  | 0 => v
  | 1 => (old + v) % 2 ^ (8 * n)
  | 2 => if sInt (8 * n) old ≤ sInt (8 * n) v then old else v
  | 3 => if sInt (8 * n) old ≤ sInt (8 * n) v then v else old
  | 4 => Nat.land old v
  | 5 => Nat.lor old v
  | _ => Nat.xor old v

def CEntry.size (e : CEntry) : Nat := if e.dbl then 8 else 4

/-- The value that an entry's bytes hold. -/
def CEntry.old (e : CEntry) (m : Memory) : Nat := ofBytes (m.readN e.addr e.size)

/-- One entry on one mirror. -/
def CEntry.on (e : CEntry) (m : Memory) : Memory :=
  if e.kind = 1 then m.writes (cellsAt e.addr (toBytes e.size e.data.toNat))
  else if e.kind = 2 then m.writes (cellsAt e.addr (toBytes e.size (cxchNew e.op e.size (e.old m) e.data.toNat)))
  else m

/-- A ply applies an entry, or buffers it while its pass runs (R369, R370). -/
def plyEntry (inPass : Bool) (e : CEntry) (p : Ply) : Ply :=
  if !p.stale then { p with mirror := e.on p.mirror } else if inPass then { p with buffer := p.buffer ++ [e] } else p

/-- The result of a CXCH reaches its core; an uncorrectable error of the issuing ply's mirror is a landing-time machine
check, and the mirror is rebuilt (R375). A context that was KILLed meanwhile takes none. -/
def cxchReply (e : CEntry) (k : CoreKey) (old : Nat) (s : State) : State :=
  let s0 := s.focus k
  let p := plyOf e.cl
  let bad := s0.plies[p].bad
  let s1 := if bad then
      { s0 with plies := s0.plies.set p { s0.plies[p] with stale := true, bad := false },
                clr := { s0.clr with resyncReq := s0.clr.resyncReq ++ [p.val] } }
    else s0
  let done (s : State) : State := s.modCore fun c => { c with toks := c.toks.filter fun t => t.id != e.req }
  if bad ∧ s1.core.act.st ≠ .done ∧ (s1.core.toks.any fun t => t.id == e.req) then
    landingTrap ⟨0x13, 5, e.word, 0, 0⟩ (some (replayReq e.req))
      (done (fillFlight e.req (fun f => { (f.fill (BitVec.ofNat 64 old) none) with need := f.need }) (delayFlight e.req s1)))
  else done (fillFlight e.req (Flight.fill (BitVec.ofNat 64 old) none) s1)

/-- A CXCH whose machine check has been resumed lands once the mirror is rebuilt (R375); a handler may withhold its result. -/
def cxchReplay (s : State) : State :=
  let c := s.core.act
  let resumed (f : Flight) : Bool := match f.need with
    | some n => c.replay.contains (replayReq n) && (s.req? n).isNone && f.slot == 5 && f.latch.isSome
    | none => false
  match (c.flights ++ match c.save with | some v => v.flights | none => []).find? resumed with
  | some f =>
    if c.st = .running ∧ s.plies[plyOf s.key.cl.val].stale = false then
      match f.need with
      | some n => clearReplay (replayReq n) (fillFlight n (fun f => { f with need := none }) s)
      | none => s
    else s
  | none => s

/-- Removes bytes [a, a + n) from a list of ranges. -/
def cutRanges (a n : Nat) (rs : List (Nat × Nat)) : List (Nat × Nat) :=
  rs.flatMap fun r =>
    (if r.1 < Nat.min r.2 a then [(r.1, Nat.min r.2 a)] else []) ++
      (if Nat.max r.1 (a + n) < r.2 then [(Nat.max r.1 (a + n), r.2)] else [])

/-- One entry is applied everywhere at once (R366). -/
def applyEntry (e : CEntry) (s : State) : State :=
  if e.kind = 3 then applyWatermark (e.addr % 256) e.data.toNat s
  else
    let old := e.old s.clr.keeper
    let s1 := { s with
      clr := { s.clr with keeper := e.on s.clr.keeper },
      plies := Vector.ofFn fun (i : Fin 12) => plyEntry (s.clr.resyncRun.contains i.val) e s.plies[i] }
    match e.key with
    | none => { s1 with parts := s1.parts.map fun p => { p with held := cutRanges e.addr 8 p.held } }
    | some k =>
      if e.kind = 2 then cxchReply e k old s1
      else s1.modAt k fun c => { c with toks := c.toks.filter fun t => t.id != e.req }

/-- A beat is applied at the end of tick s + 4, or put up for retransmission (R364, R365). -/
def beatApply (id : Nat) (s : State) : State :=
  match s.clr.beats.find? fun b => b.id == id with
  | none => s
  | some b =>
    let s1 := { s with clr := { s.clr with beats := s.clr.beats.filter fun x => x.id != id } }
    if b.failed then { s1 with clr := { s1.clr with resend := s1.clr.resend ++ [b] } }
    else b.entries.foldl (fun s e => applyEntry e s) s1

/-- BEAT_APPLIED (R364). -/
def execBeatApplied (id : Nat) (s : State) : Res := .next (settle s (beatApply id s))

/-- A station listens to column 0 or buffers it for its pass (R356, R370). -/
def State.hears (s : State) (station : Fin 13) : Bool :=
  if h : station.val < 12 then !s.plies[station.val].stale || s.clr.resyncRun.contains station.val else true

/-- The tick of the slot in which the retransmission of a beat is requested: the first odd slot from its tick + 2 on (R365). -/
def Beat.askedAt (b : Beat) : Nat := if b.sent % 2 = 1 then b.sent + 2 else b.sent + 3

/-- A station names a beat that it has failed; in no other tick is there a slot for it (R365). -/
def nameBeat (id : Nat) (station : Fin 13) (s : State) : State :=
  if s.hears station then
    { s with clr := { s.clr with
      beats := s.clr.beats.map fun b => if b.id = id ∧ b.askedAt = s.time then { b with failed := true } else b } }
  else s

/-- RETRANSMISSION_REQUEST (R365): a beat that one station fails is applied by none. -/
def execRetransmissionRequest (id : Nat) (station : Fin 13) (s : State) : Res := .next (settle s (nameBeat id station s))

/-- Free choices whether a station fails a beat whose request is due (R365, entry 86). -/
def failedBeats (s : State) : List Instr :=
  (s.clr.beats.filter fun b => b.askedAt == s.time).flatMap fun b =>
    ((List.finRange 13).filter fun st => Config.crcFails b.sent st.val).map fun st => .retransmissionRequest b.id st

/-- Plies that were powered off before this frame boundary stop listening, and their mirrors are lost (R369). -/
def mirrorsLost (s : State) : State :=
  if s.slot ≠ 0 then s
  else
    { s with plies := s.plies.map fun p =>
        if p.st = .p3 ∧ p.busy = false ∧ p.stale = false then { p with mirror := [], buffer := [], stale := true } else p }

/-! ### Resynchronisation (R370, R371) -/

/-- A pass may start at this tick: a frame boundary, none running, and the keeper copy zeroed (R23, R371). -/
def State.passDue (s : State) : Bool :=
  s.clr.resyncReq != [] && s.clr.resyncRun == [] && s.slot == 0 && decide (3 < s.bringUp)

/-- RESYNC_PASS_START (R370): the plies receive the keeper copy as it stands before any entry applied from F on. -/
def resyncStart (s : State) : State :=
  if !s.passDue then s
  else
    let run := s.clr.resyncReq.eraseDups
    { s.drawn with
      clr := { s.clr with resyncReq := [], resyncRun := run, resyncF := s.time },
      plies := Vector.ofFn fun (i : Fin 12) =>
        if run.contains i.val then { s.plies[i] with mirror := s.clr.keeper, buffer := [], stale := true, bad := false }
        else s.plies[i] }.at (s.time + 65536 + s.choose 24464) .resyncComplete

def execResyncPassStart (s : State) : Res := .next (settle s (resyncStart s))

/-- RESYNC_COMPLETE (R370): the buffered entries are applied in order, the mark clears and the plies listen. -/
def resyncEnd (s : State) : State :=
  if s.clr.resyncRun = [] ∨ s.time < s.clr.resyncF + 65536 then s
  else
    { s with
      clr := { s.clr with resyncRun := [] },
      plies := Vector.ofFn fun (i : Fin 12) =>
        let p := s.plies[i]
        if s.clr.resyncRun.contains i.val then
          { p with mirror := p.buffer.foldl (fun m e => e.on m) p.mirror, buffer := [], stale := false }
        else p }

def execResyncComplete (s : State) : Res := .next (settle s (resyncEnd s))

/-! ### The slot plan (R359) -/

/-- A shadow entry that refuses a COMMIT. -/
def planRefused (s : State) (c sl : Nat) : Bool :=
  let e := planEntry s.clr.shadow c sl
  let stn := planStn e
  let part := planPart e
  stn == 13 || stn == 14 || (decide (24 ≤ part) && part != 31) ||
    (stn != 15 && decide (part < 24) &&
      ((s.part (Fin.ofNat 24 part)).state == 0 ||
       (c == 0 && stn != 12 &&
        !((s.part (Fin.ofNat 24 part)).active.cl.getLsbD (2 * stn) || (s.part (Fin.ofNat 24 part)).active.cl.getLsbD (2 * stn + 1)))))

/-- COMMIT (R359). -/
def planCommit (s : State) : State :=
  if s.clr.busy || (List.range 960).any fun i => planRefused s (i / 64) (i % 64) then
    { s with clr := { s.clr with err := true } }
  else
    let t := (s.time / 64 + 2) * 64
    { s with clr := { s.clr with busy := true, next := s.clr.shadow, commitAt := t } }.at t .planActivate

/-- PLANCTL_COMMIT (R359). -/
def execPlanctlCommit (s : State) : Res := .next (settle s (planCommit s))

/-- A write of PLANCTL (R359). -/
def planctlWrite (x : Word) (s : State) : State :=
  let s1 := { s with clr := { s.clr with err := s.clr.err && !x.getLsbD 6 } }
  let cmd := fld x.toNat 0 4
  if cmd = 0 then s1 else if cmd = 1 then planCommit s1 else { s1 with clr := { s1.clr with err := true } }

/-- Slots per frame on columns 1-14 that a plan charges to a partition; STN 15 is no slot in use (R358, R392). -/
def planSlots (plan : List (Nat × BitVec 13)) (p : Nat) : Nat :=
  ((List.range 896).filter fun i =>
    let e := planEntry plan (i / 64 + 1) (i % 64)
    planPart e == p && planStn e != 15).length

/-- A plan with fewer slots brings STKR down to its new limit (R392). -/
def Part.limitStkr (slots : Nat) (p : Part) : Part :=
  if 64 * slots < fld p.pullctl.toNat 32 16 then
    { p with pullctl := mergeBits p.pullctl (BitVec.ofNat 64 (64 * slots * 2 ^ 32)) 0xFFFF00000000 }
  else p

/-- PLAN_ACTIVATE (R359): the plan of the COMMIT becomes active, and every partition is measured again (R392, R436). -/
def planOn (s : State) : State :=
  if s.clr.busy && s.time == s.clr.commitAt then
    (List.finRange 24).foldl (fun s p => measured p (s.modPart p (Part.limitStkr (planSlots s.clr.active p.val))))
      { s with clr := { s.clr with active := s.clr.next, busy := false } }
  else s

def execPlanActivate (s : State) : Res := .next (settle s (planOn s))

/-! ### Allocations (R362, R434) -/

/-- Byte range of an allocation. -/
def claRange (w : Word) : Nat × Nat := (claBase w, claBase w + claSize w)

/-- Two byte ranges share a byte. -/
def meets (a b : Nat × Nat) : Bool := decide (a.1 < b.2) && decide (b.1 < a.2) && decide (a.1 < a.2) && decide (b.1 < b.2)

/-- A CLALLOC write that leaves the register unchanged (R362, R434). -/
def claRefused (pn : Fin 24) (x : Word) (s : State) : Bool :=
  decide (2 ^ 23 < claBase x + claSize x) ||
    (List.finRange 24).any fun q =>
      let p := s.part q
      p.held.any (fun h => meets h (claRange x)) ||
        (q != pn && (meets (claRange p.clalloc) (claRange x) ||
          match p.clpend with | some (w, _) => meets (claRange w) (claRange x) | none => false))

/-- CLALLOC_WRITE (R362, R434): it takes effect at the next frame boundary. -/
def clallocSet (pn : Fin 24) (x : Word) (s : State) : State :=
  let x := x &&& 0x00FFF000007FF000
  if claRefused pn x s then s
  else measured pn (s.modPart pn fun p => { p with clpend := some (x, (s.time / 64 + 1) * 64) })

def execClallocWrite (p : Fin 24) (val : Word) (s : State) : Res := .next (settle s (clallocSet p val s))

/-- An accepted CLALLOC write takes effect; the bytes it removes are held until they are zero (R434). -/
def clallocDue (pn : Fin 24) (s : State) : State :=
  match (s.part pn).clpend with
  | none => s
  | some (w, t) =>
    if s.time < t then s
    else
      let old := claRange (s.part pn).clalloc
      let gone := if old.1 < old.2 then cutRanges (claBase w) (claSize w) [old] else []
      s.modPart pn fun p => { p with clalloc := w, clpend := none, held := p.held ++ gone,
                                     heldAfter := if gone = [] then p.heldAfter else s.idOf pn.val }

end Sys2Proof.Machine
end

