-- ==== Sys2Proof/Machine/Control.lean ====
section
/-! DEFINITION. The control instructions of slot S6 (R100-R102, R125-R133). Each commits at issue and leaves its
effect with the bundle, which applies it at completion. -/

namespace Sys2Proof.Machine

/-- S6 commits with a control effect. -/
def withCtl (c : Ctl) (s : State) : State :=
  commit 6 (s.modCtx fun x => { x with bun := x.bun.map fun b => { b with ctl := some c } })

/-- Header address of the bundle in view. -/
def State.here (s : State) : Word := BitVec.ofNat 64 s.core.act.pos

/-- Next bundle in sequence (R30). -/
def State.nextBundle (s : State) : Word :=
  match s.core.act.bun with
  | some b => s.here + BitVec.ofNat 64 (4 * (1 + maskCount b.mask))
  | none => s.here

/-- EMPTY of the bundle in view. -/
def State.emptyOf (s : State) : Nat :=
  match s.core.act.bun with
  | some b => b.empty
  | none => 0

/-- Bundle address + 4 × OFF (R127). -/
def jmpTarget (s : State) (off : BitVec 21) : Word := s.here + (off.signExtend 64) * 4

/-- A register write of S6 that lands after `lat` and in no latch (R127, R132). -/
def landCtl (lat : Nat) (d : Fin 64) (x : Word) (s : State) : State :=
  fly { due := s.core.act.cyc + lat, cyc := s.core.act.cyc, slot := 6, latch := none, writes := [.s d x], flags := 0,
        need := none, refresh := none } s

/-- BR (R127). -/
def execBr (r : JmpF) (s : State) : Res := slotOp 6 r.g (fun s => withCtl (.goto (jmpTarget s r.off) 0) s) s

/-- CALL (R127): s63 takes the return address at c + 1 + EMPTY. -/
def execCall (r : JmpF) (s : State) : Res :=
  slotOp 6 r.g (fun s => withCtl (.goto (jmpTarget s r.off) 1) (landCtl (1 + s.emptyOf) 63 s.nextBundle s)) s

/-- BRP (R128). -/
def execBrp (r : IndF) (s : State) : Res := slotOp 6 r.g (fun s => withCtl (.goto (s.src r.src) 0) s) s

/-- RET (R128). -/
def execRet (r : IndF) (s : State) : Res := slotOp 6 r.g (fun s => withCtl (.goto (s.src r.src) 2) s) s

/-- LOOP (R129). -/
def execLoop (r : LpfF) (s : State) : Res :=
  slotOp 6 r.g (fun s =>
    let e := s.here + BitVec.ofNat 64 (4 * r.fin.toNat)
    if s.core.act.loops.length = 6 then trapAt 6 5 0 s
    else if s.here.toNat + 4 * r.fin.toNat < s.nextBundle.toNat then trapAt 6 9 (r.fin.setWidth 64) s
    else if s.src r.cnt = 0 then withCtl (.skip e) s
    else withCtl (.push ⟨0, s.src r.cnt, s.nextBundle, e⟩) s) s

/-- LEXIT (R131). -/
def execLexit (g : Guard) (s : State) : Res :=
  slotOp 6 g (fun s => if s.core.act.visible = 0 then trapAt 6 6 0 s else withCtl .leave s) s

/-- LIX (R132): level 0 is the innermost visible loop. -/
def execLix (r : LxfF) (s : State) : Res :=
  slotOp 6 r.g (fun s =>
    if s.core.act.visible ≤ r.lv.val then trapAt 6 6 0 s
    else
      match s.core.act.loops[r.lv.val]? with
      | some l => commit 6 (landCtl 1 r.d l.index s)
      | none => trapAt 6 6 0 s) s

/-- END (R102): the exchange phase closes at its issue (R341), and the context ends at completion. -/
def execEndk (g : Guard) (s : State) : Res :=
  slotOp 6 g (fun s => withCtl .fin (s.modCtx fun c => { c with epoch := none, broken := false })) s

/-- TRAP (R100): TRAP itself commits, and the trap is delivered with DONE equal to MASK. -/
def execTrap (r : ImtF) (s : State) : Res :=
  slotOp 6 r.g (fun s => trapAt 6 4 (r.imm.setWidth 64) (commit 6 s)) s

/-- ERET (R101): outside a handler it takes trap 0x03 at issue; in a handler it acts at completion. -/
def execEret (g : Guard) (s : State) : Res :=
  slotOp 6 g (fun s => if s.core.act.inHandler then withCtl .eret s else trapAt 6 3 0 s) s

end Sys2Proof.Machine
end

