-- ==== Sys2Proof/Machine/Exchange.lean ====
section
/-! DEFINITION. ROLE, and the exchange instructions XSND and XSEL with the rails' own steps (R335-R345). -/

namespace Sys2Proof.Machine

/-- ROLE (R344). -/
def execRole (r : RegU) (s : State) : Res :=
  slotOp 5 r.g (fun s =>
    let a := s.src r.a
    let n := if a = BitVec.allOnes 64 then s.core.act.role else a.toNat
    if a ≠ BitVec.allOnes 64 ∧ s.gangSize ≤ a.toNat then trapAt 5 9 a s
    else
      let k := (s.roleCore n).getD s.key
      landS 5 1 r.wb r.d (BitVec.ofNat 64 (n * 2 ^ 24 + stripOf k.sl.val * 2 ^ 16 + k.cl.val * 2 ^ 8 + k.sl.val)) s) s

/-- EINFO of trap 0x14 (R342). -/
def railInfo (kind strip : Nat) (west : Bool) (tick : Nat) : Word :=
  BitVec.ofNat 64 (kind * 2 ^ 20 + strip * 2 ^ 16 + b2n west * 2 ^ 14 + tick % 2 ^ 14)

/-- Strip of the core in view. -/
def State.strip (s : State) : Nat := stripOf s.key.sl.val

/-- Tick of the phase that TK names. -/
def tkTick (e : Nat) (tk : BitVec 14) : Nat := e + tk.toNat

/-- The checks of R343 and R345: a phase that a save has broken, no open phase, too late. -/
def railCheck (west : Bool) (tk : BitVec 14) (go : Nat → State → State) (s : State) : State :=
  let c := s.core.act
  match c.epoch with
  | none => if c.broken then trapAt 5 0x14 (railInfo 2 s.strip west tk.toNat) s else trapAt 5 9 (tk.setWidth 64) s
  | some e =>
    if tkTick e tk < s.time then
      trapAt 5 0x14 (railInfo 1 s.strip west ((s.time - e) % 2 ^ 14)) s
    else go e s

/-- A vector source of XSND: traps and freezes as R164 gives, at slot 5. A full send buffer freezes the core with the window still
in its stream (R345). -/
def withV5 (v : VOp) (go : Vec → State → State) (s : State) : State :=
  match s.core.readV v with
  | .val x => if 8 ≤ s.core.sendBuf.length then stall (setStage .sending s) else go x (s.modCore fun c => c.useWindows (feedOf v))
  | .empty => stall (setStage .sending s)
  | .bad c => trapAt 5 9 (BitVec.ofNat 64 c) s
  | .error a => trapAt 5 0x13 (BitVec.ofNat 64 a) s

/-- An XSND that was judged at its issue freezes on: its send buffer is full, or its feed empty (R345, entry 88). -/
def sendFrozen (v : VOp) (s : State) : Bool :=
  s.core.act.stage == some .sending &&
    match s.core.readV v with
    | .val _ => decide (8 ≤ s.core.sendBuf.length)
    | .empty => true
    | _ => false

/-- XSND (R345): judged at its issue and, after a freeze, on the tick on which it goes on. -/
def execXsnd (r : XrlF) (s : State) : Res :=
  slotOp 5 r.g (fun s =>
    if sendFrozen r.v s then stall s
    else railCheck r.west r.tk (fun e s =>
      withV5 r.v (fun x s =>
        let b : RailBeat := { id := s.newId, cl := s.key.cl.val, west := r.west, strip := s.strip, tick := tkTick e r.tk,
                              from_ := s.key, x := x, entered := false, dead := none, gid := s.core.act.gid, epoch := e }
        commit 5 (({ s.drawn with rails := s.rails ++ [b] }.modCore fun c => { c with sendBuf := c.sendBuf ++ [b.id] }).at
          b.tick (.railInjection b.id false))) s) s) s

/-- Stage that a beat has reached at `t`: none before its first stage, past the last, or off its direction (R339). -/
def RailBeat.stageAt (b : RailBeat) (t : Nat) : Option Nat :=
  if !b.entered || t < b.tick + 2 then none
  else
    let n := t - b.tick - 2
    if b.west then (if n ≤ b.strip then some (b.strip - n) else none)
    else if b.strip + n ≤ 11 then some (b.strip + n) else none

/-- The beat stands on stage `st` at `t`, the tick and stage of its own collision included. -/
def RailBeat.on (b : RailBeat) (st t : Nat) : Bool :=
  b.stageAt t == some st && (b.dead == none || b.dead == some (t, st))

/-- The XSEL that freezes a context, if it stands in one. -/
def Ctx.inXsel (c : Ctx) : Option XrlF :=
  match c.bun, c.stage with
  | some b, some (.selecting _) | some b, some (.captured _) =>
    (match b.slots with | .xsel r :: _ => some r | _ => none)
  | _, _ => none

/-- Raises the rail trap in the context in view: at once in a member frozen in an XSEL, else at its next bundle. -/
def raiseRail (w : Word) (s : State) : State :=
  let c := s.core.act
  if c.st = .running ∧ c.inXsel.isSome then
    takeTrap ⟨0x14, 5, w, 0, 0⟩ (s.modCtx fun c => { c with stage := none })
  else s.modCtx fun c => { c with railTrap := c.railTrap ++ [w] }

/-- Raises it in the member of gang `gid` on the core `k`, and returns to the core that was in view. -/
def raiseRailAt (gid : Nat) (k : CoreKey) (w : Word) (s : State) : State :=
  let c := (s.coreAt k).act
  if c.gid = gid ∧ c.st ≠ .done ∧ c.st ≠ .empty then (raiseRail w (s.focus k)).focus s.key else s

/-- Members of the gang other than the senders whose XSEL of that rail waits for a tick at or after the collision. -/
def selectsFrom (s : State) (g : Gang) (west : Bool) (t : Nat) (senders : List CoreKey) : List CoreKey :=
  (g.members.filter fun m =>
    let c := s.memberCtx g m
    match c.inXsel, c.epoch with
    | some r, some e => r.west == west && decide (t ≤ tkTick e r.tk)
    | _, _ => false).map (State.memberCore g) |>.filter fun k => !senders.contains k

/-- A collision (R342): the beats are discarded from this stage on, and the trap is raised in the senders, whether their phases are still
open or not, and in the members of their gangs that still select from this rail. -/
def collide (west : Bool) (st : Nat) (hit : List RailBeat) (s : State) : State :=
  let t := s.time
  let s1 := { s with rails := s.rails.map fun b => if hit.any (·.id == b.id) then { b with dead := some (t, st) } else b }
  let fresh := hit.filter fun b => b.dead == none
  let info (e : Nat) : Word := railInfo 0 st west ((t - e) % 2 ^ 14)
  let sent := ((fresh.map fun b => (b.gid, b.from_, info b.epoch)).foldl (fun l x => if l.any fun y => y.1 == x.1 && y.2.1 == x.2.1 then l else l ++ [x]) [])
  let gangs := ((hit.map (·.gid)).eraseDups).filterMap s.gang?
  let selecting := gangs.flatMap fun g => (selectsFrom s g west t (sent.map fun x => x.2.1)).map fun k =>
    (g.id, k, info ((s.coreAt k).act.epoch.getD t))
  let s2 := gangs.foldl (fun s g => s.modGang g.id fun x => { x with hits := x.hits ++ [(west, st, t)] }) s1
  (sent ++ selecting).foldl (fun s x => raiseRailAt x.1 x.2.1 x.2.2 s) s2

/-- The beat leaves its send buffer at its injection tick, or enters its first stage two ticks later (R339). -/
def railMove (id : Nat) (enters : Bool) (s : State) : State :=
  match s.rails.find? fun b => b.id == id with
  | none => s
  | some b =>
    if !enters then
      (s.modAt b.from_ fun c => { c with sendBuf := c.sendBuf.filter (· != id) }).at (s.time + 2) (.railInjection id true)
    else
      let moved := s.rails.map fun x => if x.id = id then { x with entered := true } else x
      let s1 := { s with rails := moved.filter (fun x => decide (s.time ≤ x.tick + 14)) }
      let st := b.strip
      let hit := s1.rails.filter fun x => x.cl == b.cl && x.west == b.west && x.on st s.time
      if 2 ≤ hit.length then collide b.west st hit s1 else s1

/-- RAIL_INJECTION (R345). -/
def execRailInjection (id : Nat) (enters : Bool) (s : State) : Res := .next (settle s (railMove id enters s))

/-- A collision of this rail that already bars a capture at tick `t` (R342). -/
def State.railHit (s : State) (west : Bool) (t : Nat) : Option (Nat × Nat) :=
  match s.gang? s.core.act.gid with
  | some g => (g.hits.find? fun h => h.1 == west && decide (h.2.2 ≤ t)).map fun h => h.2
  | none => none

/-- A beat that XSEL has captured lands; a full outbound feed freezes the core on with it (R345, entry 88). -/
def xselLand (v : VOp) (x : Vec) (s : State) : State :=
  match s.core.dstReady v with
  | .bad c => trapAt 5 9 (BitVec.ofNat 64 c) s
  | .full => stall s
  | .ok =>
    match v with
    | .v i => land 5 1 (some x) [.v i x] 0 s
    | .f i => land 5 1 (some x) [.feed i (s.core.resKey i) x] 0 (s.modCore fun c => c.reserve i)
    | _ => land 5 1 (some x) [] 0 s

/-- XSEL (R345): judged at its issue, it freezes the core until the tick after E + TK; the value lands one cycle after its issue. -/
def execXsel (r : XrlF) (s : State) : Res :=
  slotOp 5 r.g (fun s =>
    match s.core.act.stage with
    | some (.captured x) => xselLand r.v x s
    | some (.selecting _) => stall s
    | _ =>
      railCheck r.west r.tk (fun e s =>
        match s.core.dstReady r.v with
        | .bad c => trapAt 5 9 (BitVec.ofNat 64 c) s
        | _ =>
          match s.railHit r.west (tkTick e r.tk) with
          | some (st, t) => trapAt 5 0x14 (railInfo 0 st r.west ((t - e) % 2 ^ 14)) s
          | none => stall ((setStage (.selecting (tkTick e r.tk)) s).at (tkTick e r.tk) (.railCapture s.key))) s) s

/-- The waiting XSEL captures the beat at its stage, or zero (R345). -/
def railTake (s : State) : State :=
  match s.core.act.stage, s.core.act.inXsel with
  | some (.selecting t), some r =>
    if s.time ≠ t ∨ s.core.act.st ≠ .running then s
    else
      let beat := s.rails.find? fun b => b.cl == s.key.cl.val && b.west == r.west && b.dead == none &&
        b.stageAt t == some s.strip
      setStage (.captured (match beat with | some b => b.x | none => 0)) s
  | _, _ => s

/-- RAIL_CAPTURE (R345). -/
def execRailCapture (k : CoreKey) (s : State) : Res := .next (settle s (railTake (s.focus k)))

/-! ### Holding the rails (R340, R341) -/

/-- Frees the rails of the gangs whose members have all closed their phases. -/
def freeRails (s : State) : State :=
  { s with railHold := s.railHold.filter fun h =>
      match s.gang? h.2 with
      | some g => g.members.any fun m => (s.memberCtx g m).epoch.isSome && (s.memberCtx g m).st != .done
      | none => false }

/-- Slot of role 0 of a gang. -/
def Gang.zeroSlot (g : Gang) : Nat :=
  match g.members.find? fun m => m.role == 0 with
  | some m => m.sl
  | none => 0

/-- The waiting phase that the free rails of a cluster go to: earliest last arrival, then lowest slot of role 0. -/
def nextRail (s : State) (w : Nat × Nat) : Bool :=
  match s.gang? (w.1 / 16) with
  | none => false
  | some g =>
    !(s.railHold.any fun h => h.1 == g.cl && h.2 != g.id) &&
      s.railWait.all fun v =>
        match s.gang? (v.1 / 16) with
        | none => true
        | some h => h.cl != g.cl || v.1 == w.1 || decide (w.2 < v.2) || (w.2 == v.2 && decide (g.zeroSlot ≤ h.zeroSlot))

/-- Gives the rails to the phases that may take them, with completion tick `tick`. -/
def grantRails (tick : Nat) (s : State) : State :=
  s.railWait.foldl (fun s w =>
    if nextRail s w then
      match s.gang? (w.1 / 16) with
      | none => s
      | some g =>
        let s1 := { s with railWait := s.railWait.filter (· != w),
                           railHold := (g.cl, g.id) :: s.railHold.filter fun h => h.1 != g.cl }
        completePhase g (Fin.ofNat 16 (w.1 % 16)) tick (s1.modGang g.id fun x => { x with hits := [] })
    else s) s

end Sys2Proof.Machine
end

