-- ==== Sys2Proof/Machine/FaultQueue.lean ====
section
/-! DEFINITION. The fault queue's and the sample ring's registers (R270, R271, R431, R442). -/

namespace Sys2Proof.Machine

/-- FQBASE or FQSIZE is written (R270, R271): HEAD and TAIL become 0, and waiting records are tried again. -/
def setFaultQueue (p : Fin 24) (size : Bool) (x : Word) (s : State) : State :=
  let log := fld x.toNat 0 5
  s.modPart p fun q => { q with
    fqbase := if size then q.fqbase else x &&& ~~~0xFFF#64,
    fqlog := if size ∧ 6 ≤ log ∧ log ≤ 16 then log else q.fqlog,
    fqhead := 0, fqtail := 0, fqlast := none, fqmerged := 0, fqblocked := false, fqretry := 0 }

/-- FAULT_QUEUE_SET (R270). -/
def execFaultQueueSet (p : Fin 24) (size : Bool) (val : Word) (s : State) : Res :=
  .next (settle s (setFaultQueue p size val s))

/-- FQTAIL is written (R270, R431): the interrupt is sent when HEAD − TAIL stays above 0. -/
def writeFqtail (p : Fin 24) (x : Word) (s : State) : State :=
  let s1 := s.modPart p fun q => { q with fqtail := x.toNat }
  let q := s1.part p
  if decide (q.fqtail < q.fqhead) && bitOf q.irqcfg.toNat 7 then msix p (fld q.irqcfg.toNat 0 6) s1 else s1

/-- FQTAIL_WRITE (R270, R431). -/
def execFqtailWrite (p : Fin 24) (val : Word) (s : State) : Res := .next (settle s (writeFqtail p val s))

/-- SMPBASE or SMPSIZE is written (R442). -/
def setSampleRing (p : Fin 24) (size : Bool) (x : Word) (s : State) : State :=
  let log := fld x.toNat 0 5
  s.modPart p fun q => { q with
    smpbase := if size then q.smpbase else x &&& ~~~0xFFF#64,
    smplog := if size ∧ 9 ≤ log ∧ log ≤ 24 then log else q.smplog,
    smphead := 0, smptail := 0, smpretry := 0 }

/-- SAMPLE_RING_SET (R442). -/
def execSampleRingSet (p : Fin 24) (size : Bool) (val : Word) (s : State) : Res :=
  .next (settle s (setSampleRing p size val s))

end Sys2Proof.Machine
end

