-- ==== Sys2Proof/Machine/Transfer.lean ====
section
/-! DEFINITION. The copy instructions of slot S5 (R286, R304). -/

namespace Sys2Proof.Machine

/-- One of the core's own accesses to its scratchpad by slot `sl`: first touch and machine check (R260, R267, R242). -/
def slotRead (sl a n : Nat) (go : State → State) (s : State) : State :=
  match touch a n s with
  | (s1, .wait) => stall s1
  | (s1, .fault g r l) => pageFault sl (s1.core.gvaOf a) g r l s1
  | (s1, .ok) => if s1.core.badAt a n then trapAt sl 0x13 (BitVec.ofNat 64 a) s1 else go s1

/-- The descriptor checks of R304, then `go` on the own-scratchpad offset. -/
def withDesc (a : Word) (go : Nat → State → State) (s : State) : State :=
  if !descOk s a then trapAt 5 9 a s
  else if a.toNat % 64 ≠ 0 then trapAt 5 8 a s
  else go (fld a.toNat 0 22) s

/-- A copy instruction (R286, R304): the command enters the time-sorted buffer with Q and AC of word 0x10. -/
def copyInsert (kind : CopyKind) (r : RegN) (s : State) : Res :=
  slotOp 5 r.g (fun s =>
    withDesc (s.src r.a) (fun off s =>
      if 1024 ≤ s.core.copies.length then stall s
      else slotRead 5 (off + 16) 8 (fun s =>
        let w := s.core.word (off + 16)
        let n := s.core.act.copyNo + 1
        let c : Copy := { id := s.newId, kind := kind, desc := off, rel := s.time / 2 ^ 64 * 2 ^ 64 + (s.src r.b).toNat, u := s.time,
                          q := Fin.ofNat 4 (fld w 24 2), ac := Fin.ofNat 4 (fld w 26 2), no := n % 2 ^ 32, st := 0,
                          joined := 0, box := none, next := 0, held := [], remain := 0, unacked := 0, handle := 0,
                          hmode := false, reason := 0, pos := s.core.act.pos }
        commit 5 (s.drawn.modCore fun k =>
          { k with copies := k.copies ++ [c], act := { k.act with copyNo := n } })) s) s) s

/-- COPY (R304). -/
def execCopy (r : RegN) (s : State) : Res := copyInsert .move r s
/-- COPYG (R292, R304). -/
def execCopyg (r : RegN) (s : State) : Res := copyInsert .gather r s
/-- COPYS (R292, R304). -/
def execCopys (r : RegN) (s : State) : Res := copyInsert .scatter r s
/-- COPYR (R293, R304). -/
def execCopyr (r : RegN) (s : State) : Res := copyInsert .reduce r s

end Sys2Proof.Machine
end

