-- ==== Sys2Proof/Machine/VectorArith.lean ====
section
/-! DEFINITION. Vector arithmetic, comparison, selection, logic, shifts, special functions and reduction
(R165-R174, R180, R181). -/

namespace Sys2Proof.Machine

/-- The floating format of an element type (R162). -/
def fmtOf : ElemT → Option Fmt
  | .f32 => some .f32
  | .bf16 => some .bf16
  | .f16 => some .f16
  | _ => none

/-- The elements of a vector value. -/
def lanesOf (w : Nat) (x : Vec) : List Nat := (List.range (2048 / w)).map fun j => lane w x j

/-- The flags of the elements in lanes whose mask bit is 1 (R166). -/
def maskedFlags (w : Nat) (mask : Word) (rs : List (Nat × Word)) : Word :=
  (rs.mapIdx fun j r => if mask.getLsbD (w * j / 32) then r.2 else 0).foldl (· ||| ·) 0

/-- Draws of an instruction that rounds `n` elements: made in RSR only, at commit (R143, R166). -/
def drawFor (m : RMode) (n : Nat) (s : State) : List Nat × State :=
  if m = .rsr then
    let r := srsDraws n s.core.act.sys.srs
    (r.1, s.modCtx fun c => { c with sys := { c.sys with srs := r.2 } })
  else (List.replicate n 0, s)

/-- Merges and lands the elements of a result (R165). -/
def landLanes (lat w : Nat) (fs : List (Fin 8)) (d : VOp) (mask : Word) (old : Vec) (rs : List (Nat × Word)) (s : State) :
    State :=
  landV lat fs d (mergeLanes w mask old (rs.map (·.1))) [] (maskedFlags w mask rs) s

/-- What an element function of a floating type gets besides its operands. -/
structure FEnv where
  f : Fmt
  rm : RMode
  daz : Bool
  ftz : Bool
  deriving DecidableEq, Repr

/-- The floating environment of the context (R147). -/
def fenv (f : Fmt) (s : State) : FEnv :=
  ⟨f, fctlMode s.core.act.sys.fctl, fctlDaz s.core.act.sys.fctl, fctlFtz s.core.act.sys.fctl⟩

/-- A two-source element instruction: `flt` on floating types (draw, a, b, old), `int` on integer types (width, a, b,
old); `rounds` tells whether RSR draws (R165-R168). -/
def elem2 (lat : Nat) (rounds : Bool) (r : VecF) (flt : FEnv → Nat → Nat → Nat → Nat → Nat × Word)
    (int : Nat → Nat → Nat → Nat → Nat) (s : State) : Res :=
  vecOp (withV [r.a, r.b] r.d (fun vs s =>
    let w := r.t.width
    let n := 2048 / w
    let old := s.core.oldV r.d
    let a := vs.getD 0 0
    let b := vs.getD 1 0
    let fs := feedOf r.a ++ feedOf r.b
    let mask := s.maskOf r.g
    match fmtOf r.t with
    | some f =>
      let env := fenv f s
      let ds := drawFor (if rounds then env.rm else .rne) n s
      landLanes lat w fs r.d mask old
        (ds.1.mapIdx fun j dr => flt env dr (lane w a j) (lane w b j) (lane w old j)) ds.2
    | none =>
      landLanes lat w fs r.d mask old
        ((List.range n).map fun j => (int w (lane w a j) (lane w b j) (lane w old j) % 2 ^ w, 0)) s)) s

/-- A one-source element instruction. -/
def elem1 (lat : Nat) (rounds : Bool) (r : VecU) (flt : FEnv → Nat → Nat → Nat × Word) (int : Nat → Nat → Nat → Nat)
    (s : State) : Res :=
  vecOp (withV [r.a] r.d (fun vs s =>
    let w := r.t.width
    let n := 2048 / w
    let old := s.core.oldV r.d
    let a := vs.getD 0 0
    let mask := s.maskOf r.g
    match fmtOf r.t with
    | some f =>
      let env := fenv f s
      let ds := drawFor (if rounds then env.rm else .rne) n s
      landLanes lat w (feedOf r.a) r.d mask old (ds.1.mapIdx fun j dr => flt env dr (lane w a j)) ds.2
    | none =>
      landLanes lat w (feedOf r.a) r.d mask old
        ((List.range n).map fun j => (int w j (lane w a j) % 2 ^ w, 0)) s)) s

/-- VADD (R168). -/
def execVadd (r : VecF) (s : State) : Res :=
  elem2 4 true r (fun e dr a b _ => e.f.flush e.ftz (e.f.add e.rm dr (e.f.read e.daz a) (e.f.read e.daz b)))
    (fun _ a b _ => a + b) s

/-- VSUB (R168): x − y; a NaN y stays a NaN. -/
def execVsub (r : VecF) (s : State) : Res :=
  elem2 4 true r (fun e dr a b _ => e.f.flush e.ftz (e.f.add e.rm dr (e.f.read e.daz a) (FV.neg (e.f.read e.daz b))))
    (fun w a b _ => a + (2 ^ w - b)) s

/-- VMUL (R168). -/
def execVmul (r : VecF) (s : State) : Res :=
  elem2 4 true r (fun e dr a b _ => e.f.flush e.ftz (e.f.mul e.rm dr (e.f.read e.daz a) (e.f.read e.daz b)))
    (fun _ a b _ => a * b) s

/-- VFMA (R168): the destination is the addend. -/
def execVfma (r : VecF) (s : State) : Res :=
  elem2 4 true r (fun e dr a b z =>
      e.f.flush e.ftz (e.f.fma e.rm dr (e.f.read e.daz a) (e.f.read e.daz b) (e.f.read e.daz z)))
    (fun _ a b z => a * b + z) s

/-- VMAX (R169). -/
def execVmax (r : VecF) (s : State) : Res :=
  elem2 4 false r (fun e _ a b _ => e.f.minmax true e.daz e.ftz a b)
    (fun w a b _ => if sInt w a ≤ sInt w b then b else a) s

/-- VMIN (R169). -/
def execVmin (r : VecF) (s : State) : Res :=
  elem2 4 false r (fun e _ a b _ => e.f.minmax false e.daz e.ftz a b)
    (fun w a b _ => if sInt w a ≤ sInt w b then a else b) s

/-- VMAXU (R169): integer types only. -/
def execVmaxu (r : VecF) (s : State) : Res :=
  elem2 4 false r (fun _ _ a _ _ => (a, 0)) (fun _ a b _ => Nat.max a b) s

/-- VMINU (R169): integer types only. -/
def execVminu (r : VecF) (s : State) : Res :=
  elem2 4 false r (fun _ _ a _ _ => (a, 0)) (fun _ a b _ => Nat.min a b) s

/-- VABS and VNEG on a floating code: the sign bit alone, a NaN canonical (R170). -/
def signOp (f : Fmt) (flip : Bool) (c : Nat) : Nat :=
  if (f.decode c).isNan then f.nan
  else
    let m := c % 2 ^ (f.width - 1)
    if flip && !bitOf c (f.width - 1) then m + 2 ^ (f.width - 1) else m

/-- VABS (R170). -/
def execVabs (r : VecU) (s : State) : Res :=
  elem1 4 false r (fun e _ a => (signOp e.f false a, 0)) (fun w _ a => if sInt w a < 0 then 2 ^ w - a else a) s

/-- VNEG (R170). -/
def execVneg (r : VecU) (s : State) : Res :=
  elem1 4 false r (fun e _ a => (signOp e.f true a, 0)) (fun w _ a => 2 ^ w - a) s

/-- Conditions on floating values (R171). -/
def vcondF : VCond → FV → FV → Bool
  | .un, x, y => x.isNan || y.isNan
  | .ne, x, y => x.isNan || y.isNan || x.cmp y != .eq
  | .eq, x, y => !x.isNan && !y.isNan && x.cmp y == .eq
  | .lt, x, y => !x.isNan && !y.isNan && x.cmp y == .lt
  | .le, x, y => !x.isNan && !y.isNan && x.cmp y != .gt
  | .gt, x, y => !x.isNan && !y.isNan && x.cmp y == .gt
  | .ge, x, y => !x.isNan && !y.isNan && x.cmp y != .lt

/-- Conditions on integers (R171). -/
def vcondI : VCond → Int → Int → Bool
  | .eq, x, y => x == y
  | .ne, x, y => x != y
  | .lt, x, y => decide (x < y)
  | .le, x, y => decide (x ≤ y)
  | .gt, x, y => decide (y < x)
  | .ge, x, y => decide (y ≤ x)
  | .un, _, _ => false

/-- A mask whose bit `i` is `f i`. -/
def maskFrom (f : Nat → Bool) : Word :=
  BitVec.ofNat 64 (ofLanes 1 ((List.range 64).map fun i => b2n (f i)))

/-- VCMP and VCMPU: a lane's bit is 1 only when the condition holds for every element in it (R171). -/
def vcompare (uns : Bool) (r : VcmF) (s : State) : Res :=
  vecOp (withV [r.a, r.b] .none (fun vs s =>
    let w := r.t.width
    let a := vs.getD 0 0
    let b := vs.getD 1 0
    let holds (j : Nat) : Bool :=
      match fmtOf r.t with
      | some f => vcondF r.cond (f.decode (lane w a j)) (f.decode (lane w b j))
      | none =>
        if uns then vcondI r.cond (lane w a j) (lane w b j) else vcondI r.cond (sInt w (lane w a j)) (sInt w (lane w b j))
    let per := 32 / w
    let mask := s.maskOf r.g
    let old := s.core.act.view.rk r.kd
    let x := maskFrom fun i =>
      if mask.getLsbD i then (List.range per).all fun e => holds (per * i + e) else old.getLsbD i
    land 3 (feedLat 2 (feedOf r.a ++ feedOf r.b)) (some (latchOf x)) [.k r.kd x] 0 s)) s

/-- VCMP (R171). -/
def execVcmp (r : VcmF) (s : State) : Res := vcompare false r s

/-- VCMPU (R171). -/
def execVcmpu (r : VcmF) (s : State) : Res := vcompare true r s

/-- A bitwise two-source instruction merged by 32-bit lane. -/
def laneOp (d a b : VOp) (g : Guard) (f : State → Nat → Nat → Nat → Nat) (s : State) : Res :=
  vecOp (withV [a, b] d (fun vs s =>
    let x := vs.getD 0 0
    let y := vs.getD 1 0
    landLanes 2 32 (feedOf a ++ feedOf b) d (s.maskOf g) (s.core.oldV d)
      ((List.range 64).map fun i => (f s i (lane 32 x i) (lane 32 y i), 0)) s)) s

/-- VSEL (R172). -/
def execVsel (r : VecS) (s : State) : Res :=
  laneOp r.d r.a r.b r.g (fun s i a b => if (s.core.act.view.rk r.m).getLsbD i then a else b) s

/-- VAND (R173). -/
def execVand (r : VecL) (s : State) : Res := laneOp r.d r.a r.b r.g (fun _ _ a b => a &&& b) s
/-- VOR (R173). -/
def execVor (r : VecL) (s : State) : Res := laneOp r.d r.a r.b r.g (fun _ _ a b => a ||| b) s
/-- VXOR (R173). -/
def execVxor (r : VecL) (s : State) : Res := laneOp r.d r.a r.b r.g (fun _ _ a b => a ^^^ b) s

/-- VSHL (R174). -/
def execVshl (r : VecF) (s : State) : Res :=
  elem2 2 false r (fun _ _ a _ _ => (a, 0)) (fun w a b _ => if w ≤ b then 0 else a * 2 ^ b) s
/-- VSHR (R174). -/
def execVshr (r : VecF) (s : State) : Res :=
  elem2 2 false r (fun _ _ a _ _ => (a, 0)) (fun w a b _ => if w ≤ b then 0 else a / 2 ^ b) s
/-- VSAR (R174). -/
def execVsar (r : VecF) (s : State) : Res :=
  elem2 2 false r (fun _ _ a _ _ => (a, 0))
    (fun w a b _ => ((sInt w a / 2 ^ (Nat.min b w)) % 2 ^ w).toNat) s

/-- VEXP2 (R180). -/
def execVexp2 (r : VecU) (s : State) : Res :=
  elem1 6 true r (fun e dr a => e.f.flush e.ftz (e.f.exp2 e.rm dr (e.f.read e.daz a))) (fun _ _ a => a) s
/-- VRCP (R180). -/
def execVrcp (r : VecU) (s : State) : Res :=
  elem1 6 true r (fun e dr a => e.f.flush e.ftz (e.f.rcp e.rm dr (e.f.read e.daz a))) (fun _ _ a => a) s
/-- VRSQ (R180). -/
def execVrsq (r : VecU) (s : State) : Res :=
  elem1 6 true r (fun e dr a => e.f.flush e.ftz (e.f.rsq e.rm dr (e.f.read e.daz a))) (fun _ _ a => a) s

/-! ### Reduction -/

/-- One level of the pairwise tree: the results, the flags, the draws left (R181). -/
def redLevel (op : Nat → Nat → Nat → Nat × Word) : List Nat → List Nat → List Nat × Word × List Nat
  | a :: b :: rest, ds =>
    let r := op (ds.headD 0) a b
    let t := redLevel op rest (ds.drop 1)
    (r.1 :: t.1, r.2 ||| t.2.1, t.2.2)
  | l, ds => (l, 0, ds)

/-- The tree of `k` levels. -/
def redTree (op : Nat → Nat → Nat → Nat × Word) : Nat → List Nat → List Nat → Word → Nat × Word
  | 0, l, _, fl => (l.headD 0, fl)
  | k + 1, l, ds, fl =>
    let t := redLevel op l ds
    redTree op k t.1 t.2.2 (fl ||| t.2.1)

/-- Magnitude of the larger operand in .amax on floating types (R181). -/
def amaxF (f : Fmt) (ftz : Bool) (a b : Nat) : Nat × Word :=
  f.minmax true false ftz (signOp f false a) (signOp f false b)

/-- Identity and operation of a floating reduction (R181). In RDN the identity −0 beside +0 sums to −0, as R168 adds (entry 88, DESIGN
CHOICE). -/
def redFloat (op : RedOp) (e : FEnv) : Nat × (Nat → Nat → Nat → Nat × Word) :=
  match op with
  | .add => (2 ^ (e.f.width - 1), fun dr a b => e.f.flush e.ftz (e.f.add e.rm dr (e.f.decode a) (e.f.decode b)))
  | .max => (e.f.inf true, fun _ a b => e.f.minmax true false e.ftz a b)
  | .min => (e.f.inf false, fun _ a b => e.f.minmax false false e.ftz a b)
  | .amax => (0, fun _ a b => amaxF e.f e.ftz a b)

/-- Identity and operation of an integer reduction of width `w` (R181). -/
def redInt (op : RedOp) (w : Nat) : Nat × (Nat → Nat → Nat → Nat × Word) :=
  let mag (x : Nat) : Nat := if sInt w x < 0 then (2 ^ w - x) % 2 ^ w else x
  match op with
  | .add => (0, fun _ a b => ((a + b) % 2 ^ w, 0))
  | .max => (2 ^ (w - 1), fun _ a b => (if sInt w a ≤ sInt w b then b else a, 0))
  | .min => (2 ^ (w - 1) - 1, fun _ a b => (if sInt w a ≤ sInt w b then a else b, 0))
  | .amax => (0, fun _ a b => (Nat.max (mag a) (mag b), 0))

/-- A DAZ read as a code: a subnormal reads as zero of its sign (R147, R181). -/
def dazCode (f : Fmt) (daz : Bool) (c : Nat) : Nat :=
  if daz && f.isSub c then b2n (bitOf c (f.width - 1)) * 2 ^ (f.width - 1) else c

/-- VRED (R181). -/
def execVred (r : VecR) (s : State) : Res :=
  vecOp (withV [r.a] r.d (fun vs s =>
    let w := r.t.width
    let n := 2048 / w
    let mask := s.maskOf r.g
    let a := vs.getD 0 0
    let pick (id_ : Nat) (rd : Nat → Nat) : List Nat :=
      (List.range n).map fun j => if mask.getLsbD (w * j / 32) then rd (lane w a j) else id_
    let out (x : Nat × Word) (s : State) : State :=
      landV 8 (feedOf r.a) r.d (BitVec.ofNat 2048 (x.1 % 2 ^ w)) [] x.2 s
    match fmtOf r.t with
    | some f =>
      let env := fenv f s
      let o := redFloat r.op env
      let ds := drawFor (if r.op = .add then env.rm else .rne) (n - 1) s
      out (redTree o.2 (Nat.log2 n) (pick o.1 (dazCode f env.daz)) ds.1 0) ds.2
    | none =>
      let o := redInt r.op w
      out (redTree o.2 (Nat.log2 n) (pick o.1 id) [] 0) s)) s

end Sys2Proof.Machine
end

