-- ==== Sys2Proof/Machine/Feed.lean ====
section
/-! DEFINITION. Streams and feeds: FBIND, FDROP and the windows of a pattern (R299-R303, R308, R309). -/

namespace Sys2Proof.Machine

/-- Element width of a pattern (R299). -/
def Pattern.w (p : Pattern) : Nat := fmtWidth p.fmt

/-- Element indices i0-i3 of element `e` of a pass. -/
def Pattern.idx (p : Pattern) (e : Nat) : List Nat :=
  let n (d : Nat) : Nat := p.e.getD d 1
  [e % n 0, e / n 0 % n 1, e / (n 0 * n 1) % n 2, e / (n 0 * n 1 * n 2)]

def Pattern.stride (p : Pattern) (d : Nat) : Int := (p.s.getD d 0).toInt

/-- Byte address of element `e` of a pass; for 4-bit elements, of its byte (R281, R299). -/
def Pattern.addr (p : Pattern) (e : Nat) : Int :=
  let i := p.idx e
  let row := (i.getD 1 0 : Nat) * p.stride 1 + (i.getD 2 0 : Nat) * p.stride 2 + (i.getD 3 0 : Nat) * p.stride 3
  (p.base : Int) + row + (if p.w < 8 then ((i.getD 0 0 / 2 : Nat) : Int) else (i.getD 0 0 : Nat) * p.stride 0)

/-- Elements of a window, and those that a pass uses in window `win`. -/
def Pattern.per (p : Pattern) : Nat := 2048 / p.w
def Pattern.used (p : Pattern) (win : Nat) : Nat := Nat.min p.per (p.count - win * p.per)

/-- The runs of bytes of a window: address and size, in element order; a pair of 4-bit elements is one run. -/
def Pattern.runs (p : Pattern) (win : Nat) : List (Nat × Nat) :=
  if p.w < 8 then (List.range (p.used win / 2)).map fun i => ((p.addr (win * p.per + 2 * i)).toNat, 1)
  else (List.range (p.used win)).map fun i => ((p.addr (win * p.per + i)).toNat, p.w / 8)

/-- Bytes that a window moves. -/
def Pattern.bytes (p : Pattern) (win : Nat) : Nat := ((p.runs win).map fun r => r.2).sum

/-- The pattern in the eight words of a record (R299). -/
def patternOf (g : List Nat) : Pattern :=
  let w0 := g.getD 0 0
  let w1 := g.getD 1 0
  { gph := bitOf w0 36, gate := Fin.ofNat 256 (fld w0 28 8), gen := bitOf w0 27, fmt := fld w0 23 4, out := bitOf w0 22,
    base := fld w0 0 22, e := [fld w1 0 16, fld w1 16 16, fld w1 32 16, fld w1 48 16],
    s := [BitVec.ofNat 32 (g.getD 2 0), BitVec.ofNat 32 (g.getD 2 0 / 2 ^ 32), BitVec.ofNat 32 (g.getD 3 0),
          BitVec.ofNat 32 (g.getD 3 0 / 2 ^ 32)] }

/-- The field check of R308: reserved bits, FMT 15, extents of 0, an odd E0 of 4-bit elements, gate fields unused. -/
def patternFields (g : List Nat) (p : Pattern) : Bool :=
  g.getD 0 0 / 2 ^ 37 == 0 && (g.drop 4).all (· == 0) && p.fmt != 15 && p.e.all (· != 0) &&
    !(p.w == 4 && p.e.getD 0 0 % 2 == 1) && (p.gen || (p.gate == 0 && !p.gph))

/-- BASE and the strides are multiples of the element's bytes (R308). -/
def patternAligned (p : Pattern) : Bool :=
  let u : Nat := Nat.max 1 (p.w / 8)
  p.base % u == 0 && (List.range 4).all fun d => (p.w == 4 && d == 0) || p.stride d % (u : Int) == 0

/-- Least and greatest element address over the corners lie inside the scratchpad (R308). -/
def patternRange (p : Pattern) : Bool :=
  let span (d : Nat) : Int :=
    if d = 0 ∧ p.w < 8 then (((p.e.getD 0 1 - 1) / 2 : Nat) : Int) else ((p.e.getD d 1 - 1 : Nat) : Int) * p.stride d
  let lo := (List.range 4).foldl (fun (x : Int) d => x + min 0 (span d)) (p.base : Int)
  let hi := (List.range 4).foldl (fun (x : Int) d => x + max 0 (span d)) (p.base : Int)
  decide (0 ≤ lo) && decide (hi ≤ 0x2FFFFF)

/-- A fresh binding at window `s` (R300, R308). -/
def Feed.bound (p : Pattern) (s : Nat) : Feed :=
  { pat := p, win := s, pass := 0, fetchWin := s, fetchPass := 0, gated := false, buf := [], res := [] }

/-- An outbound binding that still has windows to write (R309). -/
def Core.draining (c : Core) (f : Fin 8) : Bool :=
  match c.feeds[f] with
  | some fd => fd.pat.out && fd.res != []
  | none => false

/-- FBIND (R308). -/
def execFbind (r : FedF) (s : State) : Res :=
  slotOp 5 r.g (fun s =>
    let a := s.src r.a
    let w := s.src r.b
    withDesc a (fun off s =>
      slotRead 5 off 64 (fun s =>
        let g := (List.range 8).map fun i => s.core.word (off + 8 * i)
        let p := patternOf g
        if !patternFields g p then trapAt 5 9 a s
        else if !patternAligned p then trapAt 5 8 (BitVec.ofNat 64 p.base) s
        else if !patternRange p then trapAt 5 9 a s
        else if p.windows ≤ w.toNat then trapAt 5 9 w s
        else if s.core.draining r.f then stall s
        else commit 5 (s.modCore fun c => { c with feeds := c.feeds.set r.f (some (Feed.bound p w.toNat)) })) s) s) s

/-- FDROP (R309). -/
def execFdrop (r : FdropF) (s : State) : Res :=
  slotOp 5 r.g (fun s =>
    if s.core.draining r.f then stall s
    else commit 5 (s.modCore fun c => { c with feeds := c.feeds.set r.f none })) s

end Sys2Proof.Machine
end

