-- ==== Sys2Proof/Machine/HandleOps.lean ====
section
/-! DEFINITION. The handle instructions of slot S5 (R276-R279, R305-R307). -/

namespace Sys2Proof.Machine

/-- Handle state as a number (R276). -/
def HState.code : HState → Nat
  | .free => 0 | .filling => 1 | .full => 2 | .draining => 3

/-- The gate of a feed is not yet what its next pass needs (R301). -/
def gateWaits (c : Core) (fd : Feed) : Bool :=
  let h := c.handles[fd.pat.gate]
  !fd.pat.out && fd.pat.gen && !fd.gated && !(h.st == .full && h.ph == (fd.pat.gph ^^ decide (fd.fetchPass % 2 = 1)))

/-- WAIT of a handle (R276): the context's HWAIT and the stream units that wait on it as a gate. -/
def Core.handleWait (c : Core) (i : Fin 256) : Nat :=
  let hw : Bool := match c.act.bun with
    | some b => (match b.slots with | .hwait r :: _ => c.act.phase == .issuing && r.h == i | _ => false)
    | none => false
  b2n hw + ((List.range 8).map fun f =>
    match c.feeds[Fin.ofNat 8 f] with
    | some fd => if fd.pat.gate = i ∧ gateWaits c fd = true then 2 ^ (f + 1) else 0
    | none => 0).sum

/-- Word 0x8 of a handle (R276). -/
def Core.handleWord (c : Core) (i : Fin 256) : Nat :=
  let h := c.handles[i]
  c.handleWait i * 2 ^ 16 + b2n h.err * 8 + b2n h.ph * 4 + HState.code h.st

/-- HSET on a FREE or FULL handle (R277). -/
def Handle.arm (h : Handle) (drain : Bool) (n : Nat) : Handle :=
  if n = 0 then { h with exp := 0, arr := 0, st := if drain then .free else .full, ph := if drain then h.ph else !h.ph }
  else { h with exp := n, arr := 0, st := if drain then .draining else .filling }

/-- HSET (R305). -/
def execHset (r : HsetF) (s : State) : Res :=
  slotOp 5 r.g (fun s =>
    let n := s.src r.n
    let h := s.core.handles[r.h]
    if 2 ^ 32 ≤ n.toNat then trapAt 5 9 n s
    else if h.st = .filling ∨ h.st = .draining then trapAt 5 9 (BitVec.ofNat 64 (s.core.handleWord r.h)) s
    else commit 5 (s.modCore fun c => { c with handles := c.handles.set r.h (h.arm r.drain n.toNat) })) s

/-- HWAIT (R306): it freezes until the handle matches; a wait that sees FULL is an acquire point at .stand. -/
def execHwait (r : HwaitF) (s : State) : Res :=
  slotOp 5 r.g (fun s =>
    let h := s.core.handles[r.h]
    if h.st = r.st ∧ h.ph = r.ph then
      let v : Word := BitVec.ofNat 64 (b2n h.err * 2 ^ 35 + b2n h.ph * 2 ^ 34 + HState.code h.st * 2 ^ 32 + h.arr)
      land 5 1 (some (latchOf v)) [] 0
        (if h.st = .full then s.modCtx fun c => c.refresh ⟨.stand, s.stamp⟩ else s)
    else stall s) s

/-- HREL (R307). -/
def execHrel (r : HrelF) (s : State) : Res :=
  slotOp 5 r.g (fun s =>
    commit 5 (s.modCore fun c => { c with handles := c.handles.set r.h { c.handles[r.h] with st := .free } })) s

end Sys2Proof.Machine
end

