-- ==== Sys2Proof/Machine/Canopy.lean ====
section
/-! DEFINITION. The geometry of a stand and the paths that the routing entries give (R406, R407, R410). -/

namespace Sys2Proof.Machine

/-- Coordinates of a position (R406). -/
def pointOf (n : Nat) : Nat × Nat × Nat :=
  if n ≤ 3480 then (1, n / 59, n % 59) else if n ≤ 3539 then (0, 1, n - 3481) else (0, 0, 1)

/-- Two positions are adjacent, or one is absolute (R406). -/
def incident (u v : Nat) : Bool :=
  let a := pointOf u
  let b := pointOf v
  (a.1 * b.1 + a.2.1 * b.2.1 + a.2.2 * b.2.2) % 59 == 0

/-- The position of coordinates scaled so that the first nonzero one is 1; `inv` runs over the multipliers. -/
def positionOf (x y z : Nat) : Nat :=
  match (List.range 59).find? fun k => decide (k ≠ 0) &&
      (if x % 59 ≠ 0 then k * x % 59 == 1 else if y % 59 ≠ 0 then k * y % 59 == 1 else k * z % 59 == 1) with
  | none => 3540
  | some k => if x % 59 ≠ 0 then 59 * (k * y % 59) + k * z % 59 else if y % 59 ≠ 0 then 3481 + k * z % 59 else 3540

/-- The common neighbour of two distinct positions: their cross product (R407). -/
def commonNbr (u v : Nat) : Nat :=
  let a := pointOf u
  let b := pointOf v
  positionOf (a.2.1 * b.2.2 + 59 * 59 - a.2.2 * b.2.1) (a.2.2 * b.1 + 59 * 59 - a.1 * b.2.2)
    (a.1 * b.2.1 + 59 * 59 - a.2.1 * b.1)

/-- The neighbours of a position in ascending order: graph port i leads to the i-th (R407). -/
def neighbours (u : Nat) : List Nat := (List.range 3541).filter fun v => v != u && incident u v

/-- Hops of the minimal path (R410). -/
def minHops (u v : Nat) : Nat := if u = v then 0 else if incident u v then 1 else 2

/-- The intermediate of a non-minimal path, none for a minimal one (R410); `one` chooses INT1. -/
def viaOf (route : Word) (one : Bool) : Option Nat :=
  if route.getLsbD 62 then some (if one then fld route.toNat 12 12 else fld route.toNat 0 12) else none

/-- Routing entry of a position (R410). -/
def State.route (s : State) (n : Nat) : Word := lookupD s.link.routes n 0

/-- Intermediate of the path toward `n`, none where it is minimal or starts at this device. -/
def State.via (s : State) (n : Nat) (one : Bool) : Option Nat := (viaOf (s.route n) one).filter (· != s.link.pos)

/-- Hops from this device to position `n`, none where its entry is not valid. -/
def State.hopsTo (s : State) (n : Nat) (one : Bool) : Option Nat :=
  if !(s.route n).getLsbD 63 then none
  else
    match s.via n one with
    | none => some (minHops s.link.pos n)
    | some i => some (minHops s.link.pos i + minHops i n)

/-- The graph port that a beat toward `n` leaves by: PORT of the routing entry of its destination, or of its intermediate until it has
reached it (R410); none where that entry is not valid or names no graph port. -/
def State.firstPort (s : State) (n : Nat) (one : Bool) : Option Nat :=
  let route := s.route ((s.via n one).getD n)
  if (s.route n).getLsbD 63 && route.getLsbD 63 && decide (fld route.toNat 56 6 < 60) then some (fld route.toNat 56 6) else none

/-- A port carries traffic. -/
def State.portUp (s : State) (i : Nat) : Bool := if h : i < 64 then s.link.ports[i].getLsbD 3 else false

/-- The first link of the path toward `n` is up (R409). -/
def State.pathUp (s : State) (n : Nat) (one : Bool) : Bool :=
  match s.firstPort n one with
  | some i => s.portUp i
  | none => false

/-- Hops and first port of the path that a pull of block `b` of device `n` takes now (R410). -/
def State.pullPath (s : State) (n : Nat) (b : BitVec 32) : Option (Nat × Nat) :=
  match s.hopsTo n (b.getLsbD 0), s.firstPort n (b.getLsbD 0) with
  | some h, some i => some (h, i)
  | _, _ => none

/-- The partition that serves a stand tenant id (R414). -/
def State.stidPart (s : State) (stid : BitVec 16) : Option (Fin 24) :=
  (List.finRange 24).find? fun p => (s.part p).state != 0 && (s.part p).partstid.toNat % 65536 == stid.toNat

/-- Where this router sends a beat for position `n` next: to its intermediate, until it has reached it (R410). -/
def State.nextStop (s : State) (n : Nat) (via : Option Nat) : Nat := (via.filter (· != s.link.pos)).getD n

/-- A write of the routing entry of position `n` waits, and new traffic toward it with it (R411). -/
def State.routeWaits (s : State) (n : Nat) : Bool := s.link.routePend.any fun r => r.1 == n

/-- The port by which this router passes on a beat of another device toward position `n`, by its own routing entry (R410, entry 86). -/
def State.transitPort (s : State) (n : Nat) : Option Nat :=
  let route := s.route n
  if route.getLsbD 63 && decide (fld route.toNat 56 6 < 60) && s.portUp (fld route.toNat 56 6) then some (fld route.toNat 56 6) else none

end Sys2Proof.Machine
end

