-- ==== Sys2Proof/Machine/PortOps.lean ====
section
/-! DEFINITION. The port engine: its tables and its queue, and the instructions PUB, LAND, DECL, RECL, NSTAT and CNT
(R376-R386, R400-R405, R449). -/

namespace Sys2Proof.Machine

/-! ### Ports -/

/-- The context bears this name (R377). -/
def Ctx.named (c : Ctx) (p : PortName) : Bool :=
  c.st != .empty && c.part == p.part && c.task % 2 ^ 32 == p.task % 2 ^ 32 && c.gang == p.gang && c.role == p.role

/-- The name of a context as a port. -/
def Ctx.port (c : Ctx) : PortName := ⟨c.part, c.task % 2 ^ 32, c.gang, c.role⟩

/-- The core in whose active slot the port's context is. -/
def State.portCore (s : State) (p : PortName) : Option CoreKey := (s.cores.find? fun e => e.2.act.named p).map fun e => e.1

/-- The saved member that holds the port. -/
def State.savedPort (s : State) (p : PortName) : Option (Gang × Member) :=
  s.gangs.findSome? fun g =>
    if g.part = p.part ∧ g.task % 2 ^ 32 = p.task % 2 ^ 32 ∧ g.index = p.gang then
      (g.members.find? fun m => m.role == p.role && m.extra.isSome).map fun m => (g, m)
    else none

/-- Changes the port engine that holds a port's tables, wherever the context is. -/
def State.modPort (s : State) (p : PortName) (f : Port → Port) : State :=
  match s.portCore p with
  | some k => s.modAt k fun c => { c with port := f c.port }
  | none =>
    match s.savedPort p with
    | none => s
    | some (g, m) => s.modGang g.id fun x =>
        { x with members := x.members.map fun y =>
            if y.role = m.role then { y with extra := y.extra.map fun e => { e with port := f e.port } } else y }

/-- The port engine of a port. -/
def State.port? (s : State) (p : PortName) : Option Port :=
  match s.portCore p with
  | some k => some (s.coreAt k).port
  | none => (s.savedPort p).bind fun x => x.2.extra.map fun e => e.port

/-! ### Messages -/

/-- An answer leaves toward position `pos`; where no port is up it is refused, and lost (R409). It is no new traffic, so that it does not wait
for a routing entry (R411, entry 86). -/
def answerAway (pos : Nat) (one : Bool) (o : Out) (s : State) : State :=
  if s.pathUp pos one then { s with out := s.out ++ [o] } else s

/-- A message leaves toward position `pos`: it waits while the routing entry does (R411), and where no port is up it is refused, and lost
(R409, entry 86). -/
def sendAway (pos : Nat) (one : Bool) (o : Out) (s : State) : State :=
  if s.routeWaits pos then { s with link := { s.link with held := s.link.held ++ [.away pos one o] } } else answerAway pos one o s

/-- What a port engine sends to a port of this device takes 10 ticks (R394), and between plies the ticks that failed beats add (R356); there
it waits for the plan to give its partition slots (R361). -/
def sendNear (ply : Fin 12) (part : Fin 24) (far : Bool) (msg : Instr) (s : State) : State :=
  if !far then s.at (s.time + 10) msg
  else if !s.planned [ply.val] part.val then { s with link := { s.link with held := s.link.held ++ [.here ply part msg] } }
  else s.drawn.drawn.at (s.time + 10 + s.late ply.val part.val) msg

/-- The messages that wait try to leave, in their order (R361, R411). -/
def heldLeave (s : State) : State :=
  s.link.held.foldl (fun s h => match h with
    | .away pos one o => sendAway pos one o s
    | .here ply part msg => (sendNear ply part true msg (s.asParty part.val)).asParty s.party) { s with link := { s.link with held := [] } }

/-- The port's context is on another ply than the core in view (R377). -/
def State.farPort (s : State) (p : PortName) : Bool :=
  match s.portCore p with
  | some k => plyOf k.cl.val != plyOf s.key.cl.val
  | none => false

/-- Sends `msg` from the port engine in view to port `dst` of this device. -/
def sendPort (dst : PortName) (msg : Instr) (s : State) : State := sendNear (plyOf s.key.cl.val) dst.part (s.farPort dst) msg s

/-- Sends a release message about `block` to its producer (R380, R394). -/
def sendRelease (src : PortName) (peer : Nat) (block : BitVec 32) (s : State) : State :=
  if peer = 4095 then sendPort src (.releaseMessage src block) s
  else sendAway peer (block.getLsbD 0) (.release peer src.task src.gang src.role block) s

/-- The claim of a pull, from this device or from another (R383). -/
def claimOf (away : Bool) (pull : Nat) : Nat := 2 * pull + b2n away

/-- Sends an abandon for a pull to its producer (R383). -/
def sendAbandon (src : PortName) (n : Notice) (pull : Nat) (s : State) : State :=
  if n.peer = 4095 then sendPort src (.abandon src n.block (claimOf false pull)) s
  else sendAway n.peer (n.block.getLsbD 0) (.abandon n.peer src.task src.gang src.role n.block pull) s

/-- The port and the device that a consumer word names (R377, R401). -/
def consumer (w : Word) (s : State) : PortName × Nat :=
  let t := fld w.toNat 0 32
  (⟨s.core.act.part, if t = 0 then s.core.act.task % 2 ^ 32 else t, fld w.toNat 47 5, fld w.toNat 40 7⟩, fld w.toNat 52 12)

/-- A notice to the port that a consumer word names waits in the queue: for the routing entry of its device, or for a slot of the plan
between plies (R361, R411). -/
def noticeWaits (w : Word) (s : State) : Bool :=
  let c := consumer w s
  if s.ownDevice c.2 then s.farPort c.1 && !s.planned [(plyOf s.key.cl.val).val] s.core.act.part.val else s.routeWaits c.2

/-- Sends one notice to the port that a consumer word names (R377, R378, R394). A port that is down refuses it, which counts as a decline
(R409). -/
def sendNotice (n : Notice) (w : Word) (s : State) : State :=
  let c := consumer w s
  if s.ownDevice c.2 then sendPort c.1 (.noticeArrival { n with peer := 4095 } c.1 s.core.act.port) s
  else if !s.pathUp c.2 (n.block.getLsbD 0) then s.at (s.time + 10) (.releaseMessage s.core.act.port n.block)
  else { s with out := s.out ++ [.notice { n with peer := s.link.pos } c.2 c.1.task c.1.gang c.1.role
                                  (BitVec.ofNat 16 (s.part s.core.act.part).partstid.toNat)] }

/-! ### The inbound table (R384-R386) -/

def InSlot.tag (e : InSlot) : BitVec 32 :=
  match e.e with
  | .notice n _ _ _ _ => n.tag
  | .landing t _ _ _ _ => t

/-- STATE of an entry as R384 and R385 number it. -/
def InSlot.state (e : InSlot) : Nat :=
  match e.e with
  | .notice _ _ st _ _ => st
  | .landing _ _ _ _ _ => 7

/-- A landing buffer of the tag exists. -/
def Port.hasBuf (p : Port) (tag : BitVec 32) : Bool := p.inb.any fun e => e.state == 7 && e.tag == tag

/-- Notices are RANKED while a landing buffer of their TAG exists, ARRIVED while none does (R384). -/
def Port.rerank (p : Port) : Port :=
  { p with inb := p.inb.map fun e =>
      match e.e with
      | .notice n src st loc d =>
        if st = 1 ∨ st = 2 then { e with e := .notice n src (if p.hasBuf n.tag then 2 else 1) loc d } else e
      | _ => e }

/-- Entries in use, with those that accepted LANDs still in the queue will take (R402). -/
def Port.used (p : Port) : Nat :=
  p.inb.length + (p.ops.filter fun o => match o.2 with | .land _ _ _ _ t => t | _ => false).length

/-- Indices that no entry has. -/
def Port.freeIdx (p : Port) : List Nat := (List.range 512).filter fun i => !(p.inb.any fun e => e.idx == i)

/-- Takes an entry of the core in view; which free index it gets is open (entry 19). -/
def takeEntry (e : InEntry) (s : State) : State :=
  let p := s.core.port
  let free := p.freeIdx
  match free[s.choose free.length]? with
  | none => s
  | some i =>
    s.drawn.modCore fun c =>
      { c with port := Port.rerank { p with inb := p.inb ++ [⟨i, p.order, e⟩], order := p.order + 1 } }

/-- A notice enters the table of the core in view (R378, R385). -/
def enterNotice (n : Notice) (src : PortName) (s : State) : State :=
  (takeEntry (.notice n src 1 n.loc 0) s).count 12 1

/-- Delivers held notices of the context in view, in arrival order, while there is room (R378). -/
def deliverHeld : Nat → State → State
  | 0, s => s
  | k + 1, s =>
    let c := s.core.act
    let p := s.part c.part
    if 512 ≤ s.core.port.used then s
    else
      match p.hold.find? fun h => c.named h.2.1 with
      | none => s
      | some h =>
        deliverHeld k (enterNotice h.1 h.2.2 (s.modPart c.part fun q => { q with hold := q.hold.erase h }))

/-- Frees entry `i` and lets held notices in. -/
def freeEntry (i : Nat) (s : State) : State :=
  deliverHeld 512 (s.modCore fun c => { c with port := Port.rerank { c.port with inb := c.port.inb.filter fun e => e.idx != i } })

/-- A notice that enters no table is refused, which the producer counts as a decline (R378). -/
def refuseNotice (n : Notice) (src : PortName) (s : State) : State :=
  if n.peer = 4095 then s.at (s.time + 10) (.releaseMessage src n.block)
  else sendAway n.peer (n.block.getLsbD 0) (.release n.peer src.task src.gang src.role n.block) s

/-- Notices that the hold list keeps for a port are refused: its context or its task has ended (R378). -/
def refuseHeld (pn : Fin 24) (mine : PortName → Bool) (s : State) : State :=
  ((s.part pn).hold.filter fun h => mine h.2.1).foldl (fun s h => refuseNotice h.1 h.2.2 s)
    (s.modPart pn fun p => { p with hold := p.hold.filter fun h => !mine h.2.1 })

/-- Replaces the entry of an index. -/
def Port.setEntry (p : Port) (i : Nat) (e : InEntry) : Port :=
  Port.rerank { p with inb := p.inb.map fun x => if x.idx = i then { x with e := e } else x }

/-- The landing buffer of a TAG and BASE. -/
def Port.buffer (p : Port) (tag : BitVec 32) (base : Nat) : Option InSlot :=
  p.inb.find? fun e => match e.e with | .landing t b _ _ _ => t == tag && b == base | _ => false

/-! ### The queue (R311, R394, R400) -/

/-- LAND's effect in queue order (R402); none while a pull is landing in the buffer. -/
def doLand (tag : BitVec 32) (h : Fin 256) (base size : Nat) (s : State) : Option State :=
  match s.core.port.buffer tag base with
  | none => if size = 0 then some s else some (takeEntry (.landing tag base size 0 h) s)
  | some e =>
    if s.core.port.pulls.any fun p => p.buf == e.idx then none
    else if size = 0 then some (freeEntry e.idx s)
    else some (s.modCore fun c => { c with port := c.port.setEntry e.idx (.landing tag base size 0 h) })

/-- DECL's effect (R385, R403). -/
def doDecl (i : Nat) (s : State) : State :=
  match s.core.port.inb.find? fun e => e.idx == i with
  | some ⟨_, _, .notice n src st loc d⟩ =>
    if st = 1 ∨ st = 2 then
      sendRelease src n.peer n.block
        (s.modCore fun c => { c with port := c.port.setEntry i (.notice n src 5 loc d) })
    else if st = 3 then s
    else freeEntry i s
  | _ => s

/-- RECL's effect (R380, R404). -/
def doRecl (block : BitVec 32) (s : State) : State :=
  let i := block.toNat % 256
  s.modCore fun c => { c with port := { c.port with blocks := c.port.blocks.map fun b =>
    if b.idx = i ∧ b.gen = block.toNat / 256 ∧ (b.st = 2 ∨ b.st = 3 ∨ b.st = 4) then { b with st := 6 } else b } }

/-- The block has sent its last notice: PUBLISHED, with its timeout running (R380). -/
def published (block : BitVec 32) (s : State) : State :=
  match s.core.port.block? block with
  | none => s
  | some b =>
    let due := s.time + b.timeout
    (s.modCore fun c => { c with port := c.port.modBlock block fun x =>
      { x with st := if x.st = 1 then 2 else x.st, due := due } }).at due (.blockOverdue s.key block)

/-- The core in view with these operations in its port-engine queue. -/
def withOps (ops : List (Nat × PortOp)) (s : State) : State := s.modCore fun c => { c with port := { c.port with ops := ops } }

/-- One tick of an operation at the head of the queue, `rest` behind it: a table change, or the next notice of a PUB (R394, R480). -/
def portStep (seq : Nat) (op : PortOp) (rest : List (Nat × PortOp)) (s : State) : State :=
  match op with
  | .land tag h base size _ => (doLand tag h base size (withOps rest s)).getD s
  | .decl i => doDecl i (withOps rest s)
  | .recl b => doRecl b (withOps rest s)
  | .pub _ [] _ => withOps rest s
  | .pub block (w :: ws) n =>
    if noticeWaits w s then s
    else if ws = [] then published block (sendNotice n w (withOps rest s))
    else sendNotice n w (withOps ((seq, .pub block ws n) :: rest) s)

/-- One tick of the queue (R311, R394, R480): its first operation goes on, from the tick after its issue or after the one ahead of it
completes. -/
def portTick (s : State) : State :=
  match s.core.port.ops with
  | [] => s
  | (seq, op) :: rest => if fenceBlocks s 5 seq then s else portStep seq op rest s

/-- Enters an operation in the queue. -/
def portIssue (op : PortOp) (s : State) : State :=
  s.drawn.modCore fun c => { c with port := { c.port with ops := c.port.ops ++ [(s.newId, op)] } }

/-! ### Instructions -/

/-- The publish descriptor's checks of R401 that name the descriptor. -/
def pubValid (g : List Nat) : Bool :=
  let w (i : Nat) : Nat := g.getD i 0
  let n := fld (w 3) 24 7
  let cl := fld (w 3) 0 22
  let size := fld (w 1) 0 25
  fld (w 1) 25 7 == 0 && w 3 / 2 ^ 37 == 0 && !bitOf (w 3) 31 && fld (w 3) 22 2 == 0 && (g.drop 4).all (· == 0) &&
    decide (1 ≤ n) && decide (n ≤ 64) && decide (size ≤ 2 ^ 24) && w 2 / 2 ^ 32 != 0 && cl % 8 == 0 &&
    decide (cl + 8 * n ≤ 0x300000) &&
    (if bitOf (w 3) 35 then w 0 / 2 ^ 22 == 0 && decide (w 0 + size ≤ 0x300000) else w 0 / 2 ^ 52 == 4095)

/-- The first failing consumer word (R401). -/
def consBad (s : State) : List Word → Option (Nat × Word)
  | [] => none
  | w :: ws =>
    if fld w.toNat 32 8 ≠ 0 ∨ 23 < fld w.toNat 47 5 ∨ 95 < fld w.toNat 40 7 then some (9, w)
    else if !s.peerPasses s.core.act.part (fld w.toNat 52 12) then some (0xA, w)
    else consBad s ws

/-- A record that PUB may choose: the lowest that is EMPTY, RELEASED or RECLAIMED (R401). -/
def Port.freeBlock (p : Port) : Option (Nat × Nat) :=
  (List.range 256).findSome? fun i =>
    match p.blocks.find? fun b => b.idx == i with
    | none => some (i, 0)
    | some b => if b.st = 0 ∨ b.st = 5 ∨ b.st = 6 then some (i, b.gen) else none

/-- PUB's own effect: the record becomes OPEN and its notices are queued (R380, R401). -/
def pubOpen (g : List Nat) (cons : List Word) (wb : Bool) (d : Fin 64) (i gen : Nat) (s : State) : State :=
  let w (k : Nat) : Nat := g.getD k 0
  let c := s.core.act
  let gen' := (gen + 1) % 2 ^ 24
  let block : BitVec 32 := BitVec.ofNat 32 (gen' * 256 + i)
  let spm := bitOf (w 3) 35
  let loc : Word := BitVec.ofNat 64 (if spm then c.role * 2 ^ 24 + w 0 else w 0)
  let tag : BitVec 32 := BitVec.ofNat 32 (w 1 / 2 ^ 32)
  let prio := fld (w 3) 32 3
  let size := fld (w 1) 0 25
  let b : Block := { idx := i, tag := tag, gen := gen', flt := false, rcnt := cons.length, st := 1, prio := prio, spm := spm,
                     size := size, loc := loc, due := 0, timeout := w 2 / 2 ^ 32, reads := 0, claims := [] }
  let n : Notice := { tag := tag, block := block, peer := 4095, gang := c.gang, role := c.role, prio := prio,
                      dlv := bitOf (w 3) 36, spm := spm, size := size, loc := loc,
                      deadline := BitVec.ofNat 32 (w 2), task := c.task % 2 ^ 32 }
  landS 5 4 wb d (block.setWidth 64) (portIssue (.pub block cons n) (s.modCore fun k =>
    { k with port := { k.port with blocks := b :: k.port.blocks.filter fun x => x.idx != i } }))

/-- PUB freezes with what it has copied; `t` is the end of its wait for a record. -/
def pubFreeze (g : List Nat) (cons : List Word) (t : Option Nat) (s : State) : State :=
  stall (s.modCtx fun c => { c with stage := some (.publishing g cons t) })

/-- PUB after its checks: the release wait, then at most 4,096 ticks for a record, counted from `t` where that wait has begun (R401). -/
def pubWait (g : List Nat) (cons : List Word) (wb : Bool) (d : Fin 64) (t : Option Nat) (s : State) : State :=
  if t.isNone && !releaseReady .stand s then pubFreeze g cons none s
  else
    match s.core.port.freeBlock, t with
    | some (i, gen), _ => pubOpen g cons wb d i gen s
    | none, some t => pubFreeze g cons (some t) s
    | none, none => (pubFreeze g cons (some (s.time + 4096)) s).at (s.time + 4096) (.pubTimeout s.key)

/-- PUB at its issue: the descriptor and the list are checked and copied (R401). -/
def pubStart (r : RegU) (s : State) : State :=
  let a := s.src r.a
  withDesc a (fun off s =>
    slotRead 5 off 64 (fun s =>
      let g := (List.range 8).map fun i => s.core.word (off + 8 * i)
      if !pubValid g then trapAt 5 9 a s
      else
        let n := fld (g.getD 3 0) 24 7
        let cl := fld (g.getD 3 0) 0 22
        slotRead 5 cl (8 * n) (fun s =>
          let cons := (List.range n).map fun i => BitVec.ofNat 64 (s.core.word (cl + 8 * i))
          match consBad s cons with
          | some (code, w) => trapAt 5 code w s
          | none => pubWait g cons r.wb r.d none s) s) s) s

/-- PUB (R401). -/
def execPub (r : RegU) (s : State) : Res :=
  slotOp 5 r.g (fun s =>
    match s.core.act.stage with
    | some (.publishing g cons t) => pubWait g cons r.wb r.d t s
    | some .over => landS 5 4 r.wb r.d (BitVec.ofNat 64 (2 ^ 63 + 2 ^ 56)) s
    | _ => pubStart r s) s

/-- PUB_TIMEOUT (R401): the wait for a record is over. -/
def pubOver (s : State) : State :=
  match s.core.act.stage with
  | some (.publishing _ _ (some t)) =>
    if t ≤ s.time ∧ s.core.port.freeBlock.isNone then s.modCtx fun c => { c with stage := some .over } else s
  | _ => s

def execPubTimeout (k : CoreKey) (s : State) : Res := .next (settle s (pubOver (s.focus k)))

/-- LAND (R402). -/
def execLand (r : RegF) (s : State) : Res :=
  slotOp 5 r.g (fun s =>
    let a := s.src r.a
    let b := s.src r.b
    let base := fld b.toNat 0 22
    let size := fld b.toNat 32 22
    let tag : BitVec 32 := BitVec.ofNat 32 a.toNat
    if a.toNat / 2 ^ 40 ≠ 0 then trapAt 5 9 a s
    else if fld b.toNat 22 10 ≠ 0 ∨ b.toNat / 2 ^ 54 ≠ 0 ∨ size % 64 ≠ 0 ∨ 0x300000 < base + size then trapAt 5 9 b s
    else if base % 64 ≠ 0 then trapAt 5 8 b s
    else
      let p := s.core.port
      let queued : Option Bool := (p.ops.filterMap fun o => match o.2 with
        | .land t _ b' sz _ => if t = tag ∧ b' = base then some (sz != 0) else none
        | _ => none).getLast?
      let exists_ := queued.getD (p.buffer tag base).isSome
      let takes := size != 0 && !exists_
      if takes && decide (512 ≤ p.used) then landS 5 2 r.wb r.d 1 s
      else landS 5 2 r.wb r.d 0 (portIssue (.land tag (Fin.ofNat 256 (fld a.toNat 32 8)) base size takes) s)) s

/-- DECL (R403). -/
def execDecl (r : RegO) (s : State) : Res :=
  slotOp 5 r.g (fun s =>
    let a := s.src r.a
    if a.toNat / 2 ^ 9 ≠ 0 then trapAt 5 9 a s else commit 5 (portIssue (.decl a.toNat) s)) s

/-- RECL (R404). -/
def execRecl (r : RegO) (s : State) : Res :=
  slotOp 5 r.g (fun s =>
    let a := s.src r.a
    if a.toNat / 2 ^ 32 ≠ 0 then trapAt 5 9 a s else commit 5 (portIssue (.recl (a.setWidth 32)) s)) s

/-- The entry of an index. -/
def Port.entryAt (p : Port) (i : Nat) : Option InEntry := (p.inb.find? fun e => e.idx == i).map fun e => e.e

/-- The block id of a record. -/
def Block.id (b : Block) : Nat := b.gen % 2 ^ 24 * 256 + b.idx % 256

/-- STATE of a record as NSTAT reports it: RECLAIMED only once no chunk read is in progress (R404). -/
def Port.shown (p : Port) (b : Block) (now : Nat) : Nat :=
  if b.st = 6 ∧ (now < b.reads ∨ (p.waits.any fun w => w.1 == b.id) = true) then 3 else b.st

/-- The value of NSTAT (R405). -/
def nstatValue (p : Port) (now : Nat) (a : Word) : Nat :=
  let kind := a.toNat / 2 ^ 60
  let x := a.toNat % 2 ^ 60
  match kind with
  | 0 =>
    (match p.entryAt x with
     | some (.notice n _ st _ _) => n.tag.toNat * 2 ^ 32 + st * 2 ^ 29 + n.size
     | some (.landing t b _ _ _) => t.toNat * 2 ^ 32 + 7 * 2 ^ 29 + b
     | none => 0)
  | 1 =>
    (match p.entryAt x with
     | some (.notice _ _ _ loc _) => loc.toNat
     | some (.landing _ _ sz u h) => h.val * 2 ^ 56 + u * 2 ^ 32 + sz
     | none => 0)
  | 2 =>
    let hits := p.inb.filter fun e => e.tag.toNat == x % 2 ^ 32 && bitOf (fld x 32 8) e.state
    (match hits.foldl (fun (m : Option InSlot) e => match m with
        | some y => if e.order < y.order then some e else some y
        | none => some e) none with
     | some e => e.idx
     | none => 0xFFFFFFFF)
  | 3 =>
    (match p.blocks.find? fun b => b.idx == x % 256 with
     | some b => (b.gen * 256 + b.idx) * 2 ^ 32 + p.shown b now * 2 ^ 29 + b.rcnt * 2 ^ 22 + b2n b.flt
     | none => (x % 256) * 2 ^ 32)
  | _ =>
    (p.inb.filter fun e => e.state != 7).length % 2 ^ 9 + (p.inb.filter fun e => e.state == 7).length % 2 ^ 9 * 2 ^ 16 +
      (p.blocks.filter fun b => b.st != 0).length * 2 ^ 32 + p.outstanding * 2 ^ 48

/-- NSTAT (R405). -/
def execNstat (r : RegU) (s : State) : Res :=
  slotOp 5 r.g (fun s =>
    let a := s.src r.a
    let kind := a.toNat / 2 ^ 60
    if 4 < kind ∨ (kind ≤ 1 ∧ 511 < a.toNat % 2 ^ 60) then trapAt 5 9 a s
    else landS 5 2 r.wb r.d (BitVec.ofNat 64 (nstatValue s.core.port s.time a)) s) s

/-- CNT (R449): the events of the issue tick are left out. -/
def execCnt (r : RegU) (s : State) : Res :=
  slotOp 5 r.g (fun s =>
    let a := s.src r.a
    if 63 < a.toNat then trapAt 5 9 a s
    else
      let x : Word := if h : a.toNat < 25 then (s.core.evTick[a.toNat]).setWidth 64 else 0
      landS 5 2 r.wb r.d x s) s

end Sys2Proof.Machine
end

