-- ==== Sys2Proof/Machine/Launch.lean ====
section
/-! DEFINITION. Launches, task records, signals and TENQ at the root (R109, R110, R314-R323, R331, R332, R495). -/

namespace Sys2Proof.Machine

/-! ### The root's reads and writes of partition memory -/

/-- What the root's translation of an address gives (R110): the physical address, a STATE 2 entry to wait for, or none. -/
inductive RootAt where
  | ok (pa : Nat)
  | wait
  | bad
  deriving DecidableEq, Repr

/-- An address whose peer field names another device never translates (R110). -/
def rootAt (pn : Fin 24) (write : Bool) (gva : Word) (s : State) : RootAt :=
  if !s.ownDevice (peerOf gva) then .bad
  else
    match s.walk pn (vaOf gva) with
    | .leaf l => if write && !l.w then .bad else .ok (l.pa_ (vaOf gva))
    | .migrating => .wait
    | .fault _ _ => .bad

/-- What a read by the root gives: words of 8 bytes. -/
inductive RootRead where
  | ok (ws : List Nat)
  | wait
  | bad
  deriving DecidableEq, Repr

/-- Reads `n` words at the home slices; a fault or an uncorrectable error makes them unreadable (R106, R316, R319). -/
def rootWords (pn : Fin 24) (gva : Word) (n : Nat) (s : State) : RootRead :=
  let rs := (List.range (8 * n)).map fun i => rootAt pn false (gva + BitVec.ofNat 64 i) s
  if rs.any fun r => match r with | .bad => true | .ok pa => s.lineBad pa | .wait => false then .bad
  else if rs.any (· == .wait) then .wait
  else
    let bs := rs.map fun r => match r with | .ok pa => s.rd pa | _ => 0
    .ok ((List.range n).map fun i => ofBytes ((bs.drop (8 * i)).take 8))

/-- Reason and level of a translation that fails, as DETAIL0 holds them (R266, R269). -/
def rootWhy (pn : Fin 24) (write : Bool) (gva : Word) (s : State) : Word :=
  if !s.ownDevice (peerOf gva) then BitVec.ofNat 64 (4 * 256)
  else
    match s.walk pn (vaOf gva) with
    | .leaf l => if write && !l.w then BitVec.ofNat 64 (2 * 256 + if l.big then 2 else 3) else 0
    | .migrating => 0
    | .fault r l => BitVec.ofNat 64 (r * 256 + l)

/-- An addition of the root to an 8-byte counter at its home slice; a counter that does not translate, or whose line has
an uncorrectable error, is not written and is recorded (R110, R439); for a marked line of DONECNT or ABORTCNT that is entry 43's choice. The
Boolean says whether it was written. -/
def rootAdd (pn : Fin 24) (gva : Word) (n : Nat) (s : State) : State × Bool :=
  match rootAt pn true gva s with
  | .ok pa =>
    if s.lineBad pa then (rootRecord pn 0x13 gva 0 0 s.drawn, false)
    else
      (((refillLine pa s.drawn).reached (s.home pn (vaOf gva)) pa).sliceWrite pa (toBytes 8 ((ofBytes (s.rdN pa 8) + n) % 2 ^ 64)), true)
  | .wait => (s.drawn, false)
  | .bad => (rootRecord pn 0x11 gva (rootWhy pn true gva s) 0 s.drawn, false)

/-! ### The task queue -/

/-- CAP, RESV, AGE and PEN (R321). -/
def Part.capacity (p : Part) : Nat := fld p.schctl.toNat 0 13
def Part.age (p : Part) : Nat := fld p.schctl.toNat 16 5
def Part.resv (p : Part) : Nat := fld p.schctl.toNat 24 5
def Part.pen (p : Part) : Bool := bitOf p.schctl.toNat 31

/-- Tasks that are not DONE. -/
def Part.tasksHeld (p : Part) : Nat := (p.tasks.filter fun t => t.st != .done).length

/-- Clusters that a partition owns. -/
def Part.clusters (p : Part) : List Nat := (List.range 24).filter fun c => p.active.cl.getLsbD c

def State.task? (s : State) (p : Fin 24) (serial : Nat) : Option Task := (s.part p).tasks.find? fun t => t.serial == serial

def State.modTask (s : State) (p : Fin 24) (serial : Nat) (f : Task → Task) : State :=
  s.modPart p fun q => { q with tasks := q.tasks.map fun t => if t.serial = serial then f t else t }

/-! ### Signals (R317, R318) -/

/-- A dependence is met (R315). -/
def depMet (p : Part) (d : Nat × Nat) : Bool := decide (d.2 ≤ (lookupD p.sig d.1 0).toNat)

/-- The task becomes READY now: its dependences are met and its not-before time has come (R322). -/
def readyNow (p : Part) (now : Nat) (t : Task) : Bool :=
  t.st == .waiting && t.deps.all (depMet p) && (match t.nbt with | some n => decide (n ≤ now) | none => true)

/-- Its contexts see memory as if they had synchronised with the additions, and with the TENQ (R318). -/
def makeReady (now stamp : Nat) (t : Task) : Task :=
  { t with st := .ready, readyAt := now, stamp := if t.deps = [] ∧ t.from_.isNone then t.stamp else stamp }

/-- Judges the WAITING tasks of a partition. -/
def judgeWaiting (p : Fin 24) (s : State) : State :=
  s.modPart p fun q => { q with tasks := q.tasks.map fun t => if readyNow q s.time t then makeReady s.time s.stamp t else t }

/-- Adds to a signal, saturating. -/
def addSignal (p : Fin 24) (i : Fin 256) (n : Nat) (s : State) : State :=
  judgeWaiting p (s.modPart p fun q =>
    { q with sig := insertK q.sig i.val (BitVec.ofNat 32 (Nat.min 0xFFFFFFFF ((lookupD q.sig i.val 0).toNat + n))) })

/-- Scheduler traffic from a ply waits while the plan gives its partition no slot (R495). -/
def legStands (ply : Option (Fin 12)) (p : Fin 24) (s : State) : Bool :=
  match ply with
  | some n => s.legSlots n.val p.val == []
  | none => false

/-- SIGNAL_ADD (R317, R332). -/
def execSignalAdd (p : Fin 24) (sig : Fin 256) (amt : BitVec 32) (ply : Option (Fin 12)) (s : State) : Res :=
  .next (settle s (if legStands ply p s then s.at (s.time + 1) (.signalAdd p sig amt ply) else addSignal p sig amt.toNat s))

/-- SIGNAL_WRITE (R317): the count is replaced. -/
def setSignal (p : Fin 24) (sig : Fin 256) (val : BitVec 32) (s : State) : State :=
  judgeWaiting p (s.modPart p fun q => { q with sig := insertK q.sig sig.val val })

def execSignalWrite (p : Fin 24) (sig : Fin 256) (val : BitVec 32) (s : State) : Res :=
  .next (settle s (setSignal p sig val s))

/-- NOT_BEFORE_REACHED (R315, R322). -/
def execNotBeforeReached (p : Fin 24) (serial : Nat) (s : State) : Res :=
  .next (settle s (match s.task? p serial with
    | some t => if readyNow (s.part p) s.time t then s.modTask p serial (makeReady s.time s.stamp) else s
    | none => s))

/-! ### Ends of tasks -/

def State.modLaunch (s : State) (p : Fin 24) (id : Nat) (f : Launch → Launch) : State :=
  s.modPart p fun q => { q with launches := q.launches.map fun l => if l.id = id then f l else l }

/-- A launch whose tasks are all DONE, refused or discarded (R110). -/
def Launch.isOver (l : Launch) : Bool := l.next == l.ntask && l.left == 0

/-- The completion of a launch follows once it is over. -/
def launchJudge (p : Fin 24) (id : Nat) (s : State) : State :=
  match (s.part p).launches.find? fun l => l.id == id with
  | some l => if l.isOver then s.soon (.launchComplete p id) else s
  | none => s

/-- A task completes (R323): DSIG, then its launch; the entry is freed, and notices still held for its ports are refused (R378). -/
def finishTask (p : Fin 24) (t : Task) (aborted : Bool) (s : State) : State :=
  let s0 := refuseHeld p (fun h => h.task % 2 ^ 32 == t.serial % 2 ^ 32) s
  let s1 := s0.modPart p fun q => { q with tasks := q.tasks.filter fun x => x.serial != t.serial }
  let s2 := match t.dsig with
    | some i => addSignal p i 1 s1
    | none => s1
  match t.launch with
  | some id => launchJudge p id (s2.modLaunch p id fun l => { l with left := l.left - 1, aborted := l.aborted + b2n aborted })
  | none => s2

/-! ### Task records (R314-R316) -/

/-- Dependence words of a record, those with V = 1. -/
def depWords (ws : List Nat) : List Nat :=
  [fld (ws.getD 2 0) 0 32, fld (ws.getD 2 0) 32 32, fld (ws.getD 3 0) 0 32, fld (ws.getD 3 0) 32 32]

/-- A dependence word that R315 allows. -/
def depOk (d : Nat) : Bool := if bitOf d 31 then fld d 24 7 == 0 else d == 0

/-- The checks of R316 but for the image's translation. -/
def recordOk (pn : Fin 24) (p : Part) (ws : List Nat) : Bool :=
  let w0 := ws.getD 0 0
  let w1 := ws.getD 1 0
  let gang := fld w1 16 7
  let span := fld w1 11 5
  let affv := bitOf w1 10
  let aff := fld w1 5 5
  fld w0 8 7 == 0 && fld w1 0 5 == 0 && (depWords ws).all depOk && fld w1 23 5 == pn.val &&
    decide (1 ≤ gang) && decide (gang ≤ 96) && span != 1 && decide (span ≤ 24) && decide (span ≤ p.clusters.length) &&
    (!affv || (span == 0 && p.clusters.contains aff))

/-- The image base that a record names. -/
def recordImage (ws : List Nat) : Word := BitVec.ofNat 64 (ws.getD 0 0 / 2 ^ 16 * 2 ^ 16)

/-- Signal of DSV (R314). -/
def recordSig (ws : List Nat) : Option (Fin 256) :=
  if bitOf (ws.getD 0 0) 15 then some (Fin.ofNat 256 (ws.getD 0 0)) else none

/-- The task of a valid record that enters at tick `now` (R315, R320, R322). -/
def recordTask (ws : List Nat) (gva : Word) (launch : Option Nat) (from_ : Option CoreKey) (serial now : Nat) : Task :=
  let w1 := ws.getD 1 0
  { serial := serial, gva := gva, launch := launch, image := recordImage ws, dsig := recordSig ws,
    nbt := if bitOf w1 31 then some (now + (fld w1 32 32 + 2 ^ 32 - now % 2 ^ 32) % 2 ^ 32) else none,
    prio := fld w1 28 3, gang := fld w1 16 7, span := Nat.max 1 (fld w1 11 5),
    aff := if bitOf w1 10 then some (fld w1 5 5) else none,
    deps := ((depWords ws).filter fun d => bitOf d 31).map fun d => (fld d 16 8, fld d 0 16),
    args := (List.range 4).map fun i => BitVec.ofNat 64 (ws.getD (4 + i) 0), entered := now, readyAt := now, st := .waiting,
    kept := none, gangs := [], aborted := false, from_ := from_, stamp := 0 }

/-- What the entry of a record gives. -/
inductive Entry where
  | wait
  | invalid
  | entered (serial : Nat)
  deriving DecidableEq, Repr

/-- An invalid record counts as aborted, adds to its DSIG where that is known, and is recorded (R316). -/
def refuseRecord (pn : Fin 24) (gva : Word) (sig : Option (Fin 256)) (launch : Option Nat) (s : State) : State :=
  let s1 := rootRecord pn 0x42 0 0 gva s
  let s2 := match sig with
    | some i => addSignal pn i 1 s1
    | none => s1
  match launch with
  | some id => s2.modLaunch pn id fun l => { l with aborted := l.aborted + 1 }
  | none => s2

/-- A record of words `ws` enters the queue, or is refused. -/
def enterTask (pn : Fin 24) (ws : List Nat) (gva : Word) (launch : Option Nat) (from_ : Option CoreKey) (s : State) :
    State × Entry :=
  let img := if recordOk pn (s.part pn) ws then rootAt pn false (recordImage ws) s else .bad
  match img with
  | .wait => (s, .wait)
  | .bad => (refuseRecord pn gva (recordSig ws) launch s, .invalid)
  | .ok _ =>
    let n := (s.part pn).serial
    let t := recordTask ws gva launch from_ n s.time
    let s1 := s.modPart pn fun q => { q with tasks := q.tasks ++ [t], serial := n + 1 }
    let s2 := match launch with
      | some id => s1.modLaunch pn id fun l => { l with left := l.left + 1 }
      | none => s1
    let s3 := judgeWaiting pn s2
    (match t.nbt with
      | some x => if s.time < x then s3.at x (.notBeforeReached pn n) else s3
      | none => s3, .entered n)

/-! ### Launch submission (R109, R110, R319) -/

/-- Launches outstanding. -/
def Part.outstanding (p : Part) : Nat := p.launches.length + p.doorbells.length

/-- A doorbell write by function `fn` (R319, R321). -/
def doorbell (p : Fin 24) (fn : Nat) (gva : Word) (whole : Bool) (s : State) : State :=
  s.modPart p fun q =>
    if whole = false ∨ gva.toNat % 64 ≠ 0 ∨ 64 ≤ q.outstanding then { q with lnchErr := true }
    else { q with doorbells := q.doorbells ++ [(gva, fn + 25 * lookupD s.hostN fn 0)] }

/-- LAUNCH_DOORBELL (R319), written by the partition's VF. -/
def execLaunchDoorbell (p : Fin 24) (gva : Word) (whole : Bool) (s : State) : Res :=
  .next (settle s (doorbell p (p.val + 1) gva whole s))

/-- The oldest doorbell, once its function's watermark covers it and every earlier launch's records have entered. -/
def nextDoorbell (p : Fin 24) (s : State) : Option Word :=
  let q := s.part p
  match q.doorbells with
  | [] => none
  | (g, m) :: _ =>
    if (m / 25 ≤ lookupD s.hostMark (m % 25) 0) ∧ q.launches.all (fun l => l.next == l.ntask) then some g else none

/-- Fields of a descriptor that R109 fixes. -/
def descriptorOk (w : List Nat) : Bool :=
  let x (i : Nat) : Nat := w.getD i 0
  fld (x 0) 32 32 == 0x5A484C44 && fld (x 0) 16 16 == 0 && fld (x 0) 0 16 != 0 && x 1 % 64 == 0 && x 2 % 8 == 0 &&
    x 3 % 8 == 0 && x 4 / 2 ^ 17 == 0 && fld (x 4) 6 10 == 0 && x 5 == 0 && x 6 == 0 && x 7 == 0

/-- The launch that a descriptor describes. -/
def launchOf (w : List Nat) (gva : Word) (id : Nat) : Launch :=
  { id := id, gva := gva, ntask := fld (w.getD 0 0) 0 16, tasks := BitVec.ofNat 64 (w.getD 1 0),
    donecnt := BitVec.ofNat 64 (w.getD 2 0), abortcnt := BitVec.ofNat 64 (w.getD 3 0),
    irq := if bitOf (w.getD 4 0) 16 then some (fld (w.getD 4 0) 0 6) else none, next := 0, left := 0, aborted := 0,
    quiet := false }

/-- Drops the oldest doorbell. -/
def popDoorbell (p : Fin 24) (s : State) : State := s.modPart p fun q => { q with doorbells := q.doorbells.drop 1 }

/-- The root reads the next descriptor (R110). -/
def readLaunch (p : Fin 24) (s : State) : State :=
  match nextDoorbell p s with
  | none => s
  | some g =>
    match rootWords p g 8 s with
    | .wait => s.drawn
    | .bad => rootRecord p 0x42 g 0 0 (popDoorbell p s.drawn)
    | .ok w =>
      let at_ := [w.getD 1 0, w.getD 2 0, w.getD 3 0].map fun a => rootAt p false (BitVec.ofNat 64 a) s
      if descriptorOk w = false ∨ at_.any (· == .bad) = true then rootRecord p 0x42 g 0 0 (popDoorbell p s.drawn)
      else if at_.any (· == .wait) then s.drawn
      else (popDoorbell p s.drawn).modPart p fun q => { q with launches := q.launches ++ [launchOf w g s.newId] }

/-- LAUNCH_DESCRIPTOR (R109, R110, R319). -/
def execLaunchDescriptor (p : Fin 24) (s : State) : Res := .next (settle s (readLaunch p s))

/-- The launch whose records enter next, while the queue has room (R319, R320). -/
def nextRecord (p : Fin 24) (s : State) : Option Launch :=
  if (s.part p).tasksHeld < (s.part p).capacity then (s.part p).launches.find? fun l => decide (l.next < l.ntask) else none

/-- The root reads the next task record (R316, R319). -/
def readRecord (p : Fin 24) (s : State) : State :=
  match nextRecord p s with
  | none => s
  | some l =>
    let g := l.tasks + BitVec.ofNat 64 (64 * l.next)
    let went (s : State) : State := launchJudge p l.id (s.modLaunch p l.id fun x => { x with next := x.next + 1 })
    match rootWords p g 8 s with
    | .wait => s.drawn
    | .bad => went (refuseRecord p g none (some l.id) s.drawn)
    | .ok ws =>
      match enterTask p ws g (some l.id) none s.drawn with
      | (s1, .wait) => s1
      | (s1, _) => went s1

/-- TASK_RECORD_ENTRY (R316, R319, R320). -/
def execTaskRecordEntry (p : Fin 24) (s : State) : Res := .next (settle s (readRecord p s))

/-- A launch completes (R110): ABORTCNT, then DONECNT, then the interrupt. -/
def completeLaunch (p : Fin 24) (id : Nat) (s : State) : State :=
  match (s.part p).launches.find? fun l => l.id == id with
  | none => s
  | some l =>
    if !l.isOver then s
    else if rootAt p true l.abortcnt s = .wait ∨ rootAt p true l.donecnt s = .wait then
      s.drawn.at (s.time + 1) (.launchComplete p id)
    else
      let s1 := (rootAdd p l.abortcnt l.aborted s).1
      let s2 := (rootAdd p l.donecnt 1 s1).1
      let s3 := s2.modPart p fun q => { q with launches := q.launches.filter fun x => x.id != id }
      match l.irq with
      | some v => if l.quiet then s3 else msix p v s3
      | none => s3

/-- LAUNCH_COMPLETE (R110). -/
def execLaunchComplete (p : Fin 24) (id : Nat) (s : State) : Res := .next (settle s (completeLaunch p id s))

/-! ### TENQ at the root (R331) -/

def State.modTenq (s : State) (id : Nat) (f : Tenq → Tenq) : State :=
  { s with tenqs := s.tenqs.map fun q => if q.id = id then f q else q }

/-- The root sends the result back. -/
def answerTenq (q : Tenq) (v : Nat) (s : State) : State :=
  (s.modTenq q.id fun x => { x with result := some (BitVec.ofNat 64 v) }).leg 12 q.part.val (.tenqResult q.id)

/-- The launch that a TENQ's task belongs to (R323): that of the issuing task, while it is outstanding. -/
def Tenq.joins (q : Tenq) (s : State) : Option Nat :=
  if q.det then none
  else q.launch.filter fun id => (s.part q.part).launches.any fun l => l.id == id

/-- An error meets a TENQ: its context takes a landing-time trap, with the TENQ as the replay entry (R27, R92, R331). -/
def tenqError (q : Tenq) (s : State) : State :=
  if (s.coreAt q.key).act.st = .done then { s with tenqs := s.tenqs.filter fun x => x.id != q.id }
  else landingTrap ⟨0x13, 5, q.gva, q.gva, 0⟩ (some (replayReq q.id)) (delayFlight q.id (s.focus q.key))

/-- A beat of a TENQ on its way has exhausted its retries (R27, R356, entry 86). -/
def tenqLost (s : State) : Bool := Config.beatLost s.seed

/-- The root deals with a TENQ once there is an entry for it. -/
def serveTenq (q : Tenq) (s : State) : State :=
  match rootWords q.part q.gva 8 s with
  | .wait => s.drawn.at (s.time + 1) (.tenqRequest q.id)
  | .bad =>
    if rootAt q.part false q.gva s = .bad then
      answerTenq q (2 ^ 63 + 2 * 2 ^ 56) (refuseRecord q.part q.gva none (q.joins s) s.drawn)
    else tenqError q (s.drawn.modTenq q.id fun x => { x with arrived := none })
  | .ok ws =>
    match enterTask q.part ws q.gva (q.joins s) (some q.key) s.drawn with
    | (s1, .wait) => s1.at (s.time + 1) (.tenqRequest q.id)
    | (s1, .invalid) => answerTenq q (2 ^ 63 + 2 * 2 ^ 56) s1
    | (s1, .entered n) => answerTenq q (n % 2 ^ 32) s1

/-- A TENQ reaches the root, or is tried again there. -/
def tenqAtRoot (id : Nat) (s : State) : State :=
  match s.tenqs.find? fun q => q.id == id with
  | none => s
  | some q =>
    if q.result.isSome then s
    else if q.arrived.isNone && legStands (some (plyOf q.key.cl.val)) q.part s then s.at (s.time + 1) (.tenqRequest id)
    else if q.arrived.isNone && tenqLost s then tenqError q s.drawn
    else
      let s1 := if q.arrived.isNone then
          (s.drawn.modTenq id fun x => { x with arrived := some s.time }).at (s.time + 4096) (.tenqTimeout id)
        else s
      if (s.part q.part).tasksHeld < (s.part q.part).capacity then serveTenq q s1 else s1.at (s.time + 1) (.tenqRequest id)

/-- TENQ_REQUEST (R331). -/
def execTenqRequest (id : Nat) (s : State) : Res := .next (settle s (tenqAtRoot id s))

/-- TENQ_TIMEOUT (R331): the queue is still full after 4,096 ticks. -/
def execTenqTimeout (id : Nat) (s : State) : Res :=
  .next (settle s (match s.tenqs.find? fun q => q.id == id with
    | none => s
    | some q =>
      let due := match q.arrived with | some t => decide (t + 4096 ≤ s.time) | none => false
      if due && q.result.isNone && decide ((s.part q.part).capacity ≤ (s.part q.part).tasksHeld) then
        answerTenq q (2 ^ 63 + 2 ^ 56) s
      else s))

/-- The result reaches the core; one whose beat is lost is kept for the replay, which asks for it again (R92). -/
def tenqBack (id : Nat) (s : State) : State :=
  match s.tenqs.find? fun q => q.id == id with
  | none => s
  | some q =>
    match q.result with
    | none => s
    | some v =>
      if s.legSlots 12 q.part.val == [] then s.at (s.time + 1) (.tenqResult id)
      else if tenqLost s then tenqError q s.drawn
      else
        clearReplay (replayReq id) (fillFlight id (Flight.fill v none)
          ({ s.drawn with tenqs := s.tenqs.filter fun x => x.id != id } : State))

/-- TENQ_RESULT (R331). -/
def execTenqResult (id : Nat) (s : State) : Res :=
  .next (settle s (match s.tenqs.find? fun q => q.id == id with
    | none => s
    | some q => tenqBack id (s.focus q.key)))

end Sys2Proof.Machine
end

