-- ==== Sys2Proof/Machine/PortEvents.lean ====
section
/-! DEFINITION. The port engine's own steps: notices, release messages, timeouts, ranking, grants, chunks and their
landing (R376-R398). -/

namespace Sys2Proof.Machine

/-! ### Arrival of a notice (R378) -/

/-- The task of a port's name. -/
def State.portTask (s : State) (p : PortName) : Option Task :=
  (s.part p.part).tasks.find? fun t => t.serial % 2 ^ 32 == p.task

/-- Puts a notice in the partition's hold list, or refuses it on a full one. -/
def holdNotice (n : Notice) (dst src : PortName) (s : State) : State :=
  if (s.part dst.part).hold.length < 4096 then s.modPart dst.part fun p => { p with hold := p.hold ++ [(n, dst, src)] }
  else refuseNotice n src s

/-- A notice reaches its port (R378). A context that has issued END declines what reaches it. -/
def noticeReaches (n : Notice) (dst src : PortName) (s : State) : State :=
  match s.portTask dst with
  | none => refuseNotice n src s
  | some t =>
    if t.st = .done ∨ t.span ≤ dst.gang ∨ t.gang ≤ dst.role then refuseNotice n src s
    else
      match (if t.st = .running then s.portCore dst else none) with
      | none => if t.st = .running ∧ (s.savedPort dst).isNone then refuseNotice n src s else holdNotice n dst src s
      | some k =>
        let s1 := s.focus k
        if s1.core.act.ended then refuseNotice n src s1
        else if decide (512 ≤ s1.core.port.used) || (s1.part dst.part).hold.any (fun h => h.2.1 == dst) then
          holdNotice n dst src s1
        else enterNotice n src s1

/-- NOTICE_ARRIVAL's effect (R378): one of another device is served in the partition that has its stand tenant id, and refused where none
has. -/
def noticeArrives (n : Notice) (dst src : PortName) (s : State) : State :=
  match n.stid with
  | none => noticeReaches n dst src s
  | some x =>
    match s.stidPart x with
    | none => refuseNotice n src s
    | some p => noticeReaches n { dst with part := p } { src with part := p } s

/-- NOTICE_ARRIVAL (R378). -/
def execNoticeArrival (n : Notice) (dst from_ : PortName) (s : State) : Res := .next (settle s (noticeArrives n dst from_ s))

/-! ### Messages to the producer (R380, R383) -/

/-- A pinned record: OPEN, PUBLISHED, PULLING or OVERDUE. -/
def Block.pinned (b : Block) : Bool := b.st == 1 || b.st == 2 || b.st == 3 || b.st == 4

/-- A release message lowers RCNT; the last makes the block RELEASED (R380). -/
def Block.release (b : Block) : Block :=
  if !b.pinned then b
  else if b.rcnt ≤ 1 then { b with rcnt := 0, st := 5 } else { b with rcnt := b.rcnt - 1 }

/-- RELEASE_MESSAGE (R380). -/
def execReleaseMessage (dst : PortName) (block : BitVec 32) (s : State) : Res :=
  .next (settle s (s.modPort dst fun p => p.modBlock block Block.release))

/-- The claim of a pull ends. -/
def Block.unclaim (pull : Nat) (b : Block) : Block :=
  { b with claims := b.claims.filter (· != pull), owed := b.owed.filter (·.1 != pull), served := b.served.filter (· != pull) }

/-- A pull is abandoned: its claim and its requests that wait at the port engine. -/
def Port.abandoned (block : BitVec 32) (pull : Nat) (p : Port) : Port :=
  { p.modBlock block (Block.unclaim pull) with waits := p.waits.filter fun w => !(w.1 == block.toNat && w.2.1 == pull) }

/-- ABANDON (R383): the claim ends, and RCNT does not fall. -/
def execAbandon (dst : PortName) (block : BitVec 32) (pull : Nat) (s : State) : Res :=
  .next (settle s (s.modPort dst (Port.abandoned block pull)))

/-! ### Timeouts (R380-R382) -/

/-- Whether a record has expired: an event that a clock-gated ply has held up counts as one of its own tick (R16, R380). -/
def Block.expires (b : Block) (now : Nat) : Bool := (b.st == 2 || b.st == 3) && decide (b.rcnt > 0) && decide (b.due ≤ now)

/-- A resident producer's block reaches DUE (R380, R382). -/
def blockOverdue (block : BitVec 32) (s : State) : State :=
  match s.core.port.block? block with
  | none => s
  | some b =>
    if !b.expires s.time then s
    else if s.core.act.ended then
      blockReclaimed s.core.act.part block (s.modCore fun c => { c with port := c.port.modBlock block fun x => { x with st := 6 } })
    else
      s.modCore fun c => { c with
        port := c.port.modBlock block fun x => { x with st := 4 },
        act := { c.act with asyncQ := c.act.asyncQ ++ [block.setWidth 64],
                            sys := { c.act.sys with estat := c.act.sys.estat ||| 0x10#64 } } }

/-- A block of a saved member reaches DUE: the trap stays pending, or the record of a member that has issued END is reclaimed. -/
def Extra.overdue (block : BitVec 32) (e : Extra) : Extra :=
  if e.ended then { e with port := e.port.modBlock block fun x => { x with st := 6 } }
  else { e with port := e.port.modBlock block fun x => { x with st := 4 }, asyncQ := e.asyncQ ++ [block.setWidth 64] }

/-- As `blockOverdue`, for producers that are saved (R102, R382). -/
def savedOverdue (block : BitVec 32) (s : State) : State :=
  let due (m : Member) : Bool := match m.extra with
    | some e => (match e.port.block? block with | some b => b.expires s.time | none => false)
    | none => false
  let late (m : Member) : Member := if due m then { m with extra := m.extra.map (Extra.overdue block) } else m
  let s1 := { s with gangs := s.gangs.map fun (g : Gang) => { g with members := g.members.map late } }
  s.gangs.foldl (fun s g => g.members.foldl (fun s m =>
    if due m && (m.extra.map fun e => e.ended) == some true then blockReclaimed g.part block s else s) s) s1

/-- BLOCK_OVERDUE (R382): the producer is on the core, or saved. -/
def execBlockOverdue (k : CoreKey) (block : BitVec 32) (s : State) : Res :=
  let s1 := s.focus k
  .next (settle s (match s1.core.port.block? block with
    | some b =>
      if b.expires s.time then blockOverdue block s1 else savedOverdue block s1
    | none => savedOverdue block s1))

/-! ### Ranking and grants (R386-R389, R398) -/

def Ctx.chunkSize (c : Ctx) : Nat := fld c.sys.chunk.toNat 0 13
def Ctx.chunkMode (c : Ctx) : Nat := fld c.sys.chunk.toNat 62 2
def Ctx.chunkLog (c : Ctx) : Nat := fld c.sys.chunk.toNat 32 22
def Ctx.chunkNlog (c : Ctx) : Nat := fld c.sys.chunk.toNat 14 11

/-- The earliest-posted landing buffer of the TAG with room: index, BASE, SIZE, USED and handle (R386). -/
def Port.room (p : Port) (n : Notice) : Option (Nat × Nat × Nat × Nat × Fin 256) :=
  (p.inb.foldl (fun (m : Option InSlot) e =>
    match e.e with
    | .landing t _ sz u _ =>
      if t = n.tag ∧ u + n.size ≤ sz then (match m with | some y => if e.order < y.order then some e else some y | none => some e)
      else m
    | _ => m) none).bind fun e =>
      match e.e with
      | .landing _ b sz u h => some (e.idx, b, sz, u, h)
      | _ => none

/-- Path length of a notice's pull (R388, R410). -/
def State.pullHops (s : State) (n : Notice) : Nat :=
  if n.peer = 4095 then 0 else (s.hopsTo n.peer (n.block.getLsbD 0)).getD 0

/-- The meters that a pull passes: key and rate (R392). -/
def pullMeters (s : State) (n : Notice) (src : PortName) : List (Nat × Nat) :=
  let ctl := (s.part s.core.act.part).pullctl.toNat
  let farPly := match s.portCore src with
    | some k => plyOf k.cl.val != plyOf s.key.cl.val
    | none => false
  [(s.key.cl.val, fld ctl 16 16)] ++ (if n.peer ≠ 4095 ∨ farPly = true then [(24, fld ctl 32 16)] else []) ++
    (if n.peer ≠ 4095 then [(25, fld ctl 48 16), (26 + n.peer, fld (lookupD s.link.routes n.peer (0 : Word)).toNat 32 16)]
     else [])

/-- Every meter could admit `c` bytes. -/
def metersAdmit (s : State) (ms : List (Nat × Nat)) (c : Nat) : Bool :=
  ms.all fun m => decide (16 * c ≤ lookupD (s.part s.core.act.part).meters m.1 0)

/-- The meters give `c` bytes. -/
def metersTake (ms : List (Nat × Nat)) (c : Nat) (s : State) : State :=
  s.modPart s.core.act.part fun p =>
    { p with meters := ms.foldl (fun l m => insertK l m.1 (lookupD l m.1 0 - 16 * c)) p.meters }

/-- A ranked notice as the scheduler sees it. -/
structure Ranked where
  e : InSlot
  n : Notice
  src : PortName
  deriving DecidableEq, Repr

/-- Rank of a notice under one criterion: smaller stands first (R388). -/
def critRank (s : State) (crit : Nat) (r : Ranked) : Int :=
  match crit with
  | 1 => -(r.n.prio : Int)
  | 2 => if (s.core.port.room r.n).isSome then 0 else 1
  | 3 => if metersAdmit s (pullMeters s r.n r.src) s.core.act.chunkSize then 0 else 1
  | 4 => (r.e.order : Int)
  | 5 => if r.n.dlv then sInt 32 ((r.n.deadline - BitVec.ofNat 32 s.time).toNat) else 2 ^ 40
  | _ => (s.pullHops r.n : Int)

/-- The keys in use: those before the first with CRIT 0 (R388). -/
def keysInUse (ks : List Nat) : List (Nat × Bool) :=
  (ks.takeWhile fun k => k % 8 != 0).map fun k => (k % 8, bitOf k 3)

/-- `a` stands before `b` (R388); equal notices stand in order of arrival. -/
def ranksBefore (s : State) (a b : Ranked) : List (Nat × Bool) → Bool
  | [] => decide (a.e.order ≤ b.e.order)
  | (c, rev) :: ks =>
    let x := if rev then -critRank s c a else critRank s c a
    let y := if rev then -critRank s c b else critRank s c b
    if x < y then true else if y < x then false else ranksBefore s a b ks

/-- The RANKED notices that take part. -/
def rankedNotices (s : State) : List Ranked :=
  s.core.port.inb.filterMap fun e =>
    match e.e with
    | .notice n src 2 _ d => if d ≤ s.time then some ⟨e, n, src⟩ else none
    | _ => none

/-- The first in rank order. -/
def topNotice (s : State) : Option Ranked :=
  (rankedNotices s).foldl (fun (m : Option Ranked) r =>
    match m with
    | some y => if ranksBefore s y r (keysInUse s.core.port.keys) then some y else some r
    | none => some r) none

/-- Notices that the scheduler has granted and whose requests have not all issued. -/
def Port.requesting (p : Port) : Bool := p.pulls.any fun q => decide (q.next < q.count)

/-- The scheduler is free (R389). -/
def schedFree (s : State) : Bool := !s.core.port.requesting && decide (s.core.port.idleFrom ≤ s.time)

/-- The record of a grant in the log (R398). -/
def grantRecord (n : Notice) (delta : Nat) : List Byte :=
  toBytes 8 (n.tag.toNat * 2 ^ 32 + delta % 2 ^ 32) ++
    toBytes 8 (n.peer * 2 ^ 52 + n.gang * 2 ^ 47 + n.role * 2 ^ 40 + n.block.toNat)

def Ctx.bumpNlog (c : Ctx) : Ctx := { c with sys := { c.sys with chunk := c.sys.chunk + 0x4000#64 } }

/-- Replay mode chooses the grants: a record whose BLOCK is 0 ends the log (R398). -/
def replaying (s : State) : Bool :=
  s.core.act.chunkMode == 2 && decide (s.core.act.chunkNlog < 1024) &&
    s.core.word (s.core.act.chunkLog + 16 * s.core.act.chunkNlog + 8) % 2 ^ 32 != 0

/-- Appends a grant to the log in record mode; raises NLOG in replay mode, for a record that was used (R398). -/
def logGrant (n : Notice) (s : State) : State :=
  let c := s.core.act
  if 1024 ≤ c.chunkNlog ∨ c.chunkMode = 0 ∨ c.chunkMode = 3 then s
  else if c.chunkMode = 2 then if replaying s then s.modCtx Ctx.bumpNlog else s
  else
    (s.modCore fun k => k.spWrite (c.chunkLog + 16 * c.chunkNlog) (grantRecord n (s.time - k.port.lastGrant))).modCtx Ctx.bumpNlog

/-- USED of a landing buffer rises. -/
def InEntry.useMore (n : Nat) : InEntry → InEntry
  | .landing t b sz u h => .landing t b sz (u + n) h
  | x => x

def InSlot.useMore (i n : Nat) (x : InSlot) : InSlot := if x.idx = i then { x with e := InEntry.useMore n x.e } else x

/-- A reservation of a landing buffer goes back (R385, R386). -/
def InEntry.giveBack (took : Nat) : InEntry → InEntry
  | .landing t b sz u h => .landing t b sz (u - took) h
  | x => x

/-- Grants a notice into a landing buffer (R385, R386, R391). A notice of no bytes is LANDED at once. -/
def grant (r : Ranked) (b : Nat × Nat × Nat × Nat × Fin 256) (s : State) : State :=
  let n := r.n
  let chunk := s.core.act.chunkSize
  let took := Nat.min ((n.size + 63) / 64 * 64) (b.2.2.1 - b.2.2.2.1)
  let s1 := logGrant n s
  let s2 := s1.modCore fun c =>
    { c with port := { c.port with
      lastGrant := s.time
      idleFrom := s.time + 1
      inb := c.port.inb.map (InSlot.useMore b.1 took) } }
  if n.size = 0 then
    sendRelease r.src n.peer n.block (s2.modCore fun c =>
      { c with port := c.port.setEntry r.e.idx (.notice n r.src 4 (BitVec.ofNat 64 (b.2.1 + b.2.2.2.1)) 0) })
  else
    let q : Pull := { id := s2.newId, idx := r.e.idx, chunk := chunk, next := 0, count := (n.size + chunk - 1) / chunk,
                      resolved := 0, withdrawn := false, base := b.2.1 + b.2.2.2.1, buf := b.1, took := took, credited := 0,
                      h := b.2.2.2.2, fate := 0 }
    s2.drawn.modCore fun c =>
      { c with port := { (c.port.setEntry r.e.idx (.notice n r.src 3 n.loc 0)) with pulls := c.port.pulls ++ [q] } }

/-- Whether the log record at NLOG names the notice, by TAG, PEER, GANG, ROLE and BLOCK (R398). -/
def replayMatch (s : State) (n : Notice) : Bool :=
  let a := s.core.act.chunkLog + 16 * s.core.act.chunkNlog
  let w := s.core.word (a + 8)
  s.core.word a / 2 ^ 32 == n.tag.toNat && fld w 52 12 == n.peer && fld w 47 5 == n.gang && fld w 40 7 == n.role && fld w 0 32 == n.block.toNat

/-- The notice that the scheduler would grant on this tick. -/
def grantChoice (s : State) : Option Ranked :=
  if replaying s then
    if s.core.port.lastGrant + s.core.word (s.core.act.chunkLog + 16 * s.core.act.chunkNlog) % 2 ^ 32 ≤ s.time then
      (rankedNotices s).find? fun r => replayMatch s r.n
    else none
  else topNotice s

/-- The grant log's bytes that a grant touches. -/
def logRun (s : State) : Nat × Nat :=
  if s.core.act.chunkMode = 0 ∨ 1024 ≤ s.core.act.chunkNlog then (0, 0)
  else (s.core.act.chunkLog + 16 * s.core.act.chunkNlog, 16)

/-- The scheduler has something to judge: it is free, its context runs on, and some notice is RANKED (R389). -/
def schedAsks (s : State) : Bool := schedFree s && !s.saving && !s.core.act.ended && rankedNotices s != []

/-- A grant can take place (R389). -/
def grantReady (s : State) : Bool :=
  schedAsks s &&
    match grantChoice s with
    | some r => (s.core.port.room r.n).isSome
    | none => false

/-- The first notice in rank order, or the one that the log names, is granted where it fits. -/
def grantNow (s : State) : State :=
  if !grantReady s then s
  else
    match grantChoice s with
    | some r => (match s.core.port.room r.n with | some b => grant r b s | none => s)
    | none => s

/-- The log's record is read to judge in replay mode, and written by a grant in record mode: its granule is touched first (R260, R398). -/
def logTouched (s : State) : Bool := schedAsks s && (s.core.act.chunkMode == 2 || grantReady s)

/-- One tick of the scheduler (R389). -/
def pullGrant (s : State) : State :=
  if !logTouched s then s
  else
    match touch (logRun s).1 (logRun s).2 s with
    | (s1, .ok) => grantNow s1
    | (s1, _) => s1

/-- PULL_GRANT (R389). -/
def execPullGrant (k : CoreKey) (s : State) : Res := .next (settle s (pullGrant (s.focus k)))

/-- DEFERRAL_EXPIRY (R385): the notice of the entry takes its place in the order again. -/
def execDeferralExpiry (k : CoreKey) (entry : Fin 512) (s : State) : Res :=
  .next (settle s ((s.focus k).modCore fun c => { c with port := { c.port with inb := c.port.inb.map fun e =>
    match e.e with
    | .notice n src st loc d => if e.idx = entry.val ∧ d ≤ s.time then { e with e := .notice n src st loc 0 } else e
    | _ => e } }))

/-! ### Chunk requests (R390, R391) -/

/-- The notice of an entry. -/
def Port.notice? (p : Port) (i : Nat) : Option (Notice × PortName) :=
  match p.entryAt i with
  | some (.notice n src _ _ _) => some (n, src)
  | _ => none

/-- The chunk that would be requested next: pull, notice, producer, offset and size. -/
def nextChunk (c : Core) : Option (Pull × Notice × PortName × Nat × Nat) :=
  (c.port.pulls.find? fun q => decide (q.next < q.count)).bind fun q =>
    (c.port.notice? q.idx).map fun n => (q, n.1, n.2, q.next * q.chunk, Nat.min q.chunk (n.1.size - q.next * q.chunk))

/-- Hops and port of a pull of another device: every chunk keeps those of the first (R410). -/
def Pull.route (q : Pull) (n : Notice) (s : State) : Option (Nat × Nat) := q.path.orElse fun _ => s.pullPath n.peer n.block

/-- The canopy takes a chunk request: its path is known and its port up, and no routing entry waits (R409-R411). -/
def Pull.canLeave (q : Pull) (n : Notice) (s : State) : Bool :=
  match q.route n s with
  | some p => s.portUp p.2 && !s.routeWaits n.peer
  | none => false

/-- RATE (R391). -/
def Ctx.rate (c : Ctx) : Nat := fld c.sys.pace.toNat 0 16

/-- The next chunk may issue (R391). A RATE of 0 stops new requests. -/
def chunkReady (s : State) : Bool :=
  match nextChunk s.core with
  | none => false
  | some (q, n, src, _, c) =>
    s.core.act.rate != 0 && decide (16 * c ≤ s.core.port.bucket) && decide (s.core.port.outstanding < 16) &&
      metersAdmit s (pullMeters s n src) c && (n.peer == 4095 || q.canLeave n s)

/-- Every meter of the pull has admitted the slot of core `k` last (R392). -/
def metersPassed (ms : List (Nat × Nat)) (k : CoreKey) (p : Part) : Part :=
  { p with admitted := ms.foldl (fun l m => insertK l m.1 k.sl.val) p.admitted }

/-- Issues one chunk request: it reaches the producer 4 + 26h ticks later (R394). -/
def chunkIssue (s : State) : State :=
  match nextChunk s.core with
  | none => s
  | some (q, n, src, off, c) =>
    if !chunkReady s then s
    else
      let path := if n.peer = 4095 then none else q.route n s
      let h := (path.map fun p => p.1).getD 0
      let x : Chunk := { id := s.newId, key := s.key, ctx := s.core.act.gid, pull := q.id, idx := q.idx, n := q.next, off := off,
                         size := c, first := q.next == 0, src := src, block := n.block, hops := h, outcome := 0, data := [], held := false }
      let s1 := (metersTake (pullMeters s n src) c s.drawn).modCore fun k =>
        { k with port := { k.port with
            bucket := k.port.bucket - 16 * c
            outstanding := k.port.outstanding + 1
            idleFrom := if q.next + 1 = q.count then s.time + 1 else k.port.idleFrom
            pulls := k.port.pulls.map fun y => if y.id = q.id then { y with next := y.next + 1, path := path } else y } }
      let s2 := s1.modPart s.core.act.part (metersPassed (pullMeters s n src) s.key)
      let s3 := if n.peer = 4095 then s2 else { s2 with out := s2.out ++ [.chunkAsk n.peer n.block off c] }
      { s3 with chunks := s3.chunks ++ [x] }.at (s.time + 4 + 26 * h) (.chunkServe (.here x.id))

/-- Place of a core's slot in the round robin of a meter: the slot after the one admitted last stands first (R392). -/
def Part.turnOf (p : Part) (m : Nat) (k : CoreKey) : Nat := (k.sl.val + 99 - lookupD p.admitted m 99) % 100 * 24 + k.cl.val

/-- The meters that the next chunk request of the core in view passes. -/
def chunkMeters (s : State) : List Nat :=
  match nextChunk s.core with
  | some (_, n, src, _, _) => (pullMeters s n src).map fun m => m.1
  | none => []

/-- The contender whose request the meters admit next: the first in the round robin of each meter that it contends for; where the meters'
orders form a ring, the first core listed breaks it (R392, entry 91). -/
def roundRobin (p : Part) (xs : List (CoreKey × List Nat)) : Option CoreKey :=
  let first (x : CoreKey × List Nat) : Bool := x.2.all fun m => xs.all fun y =>
    !y.2.contains m || decide (p.turnOf m x.1 ≤ p.turnOf m y.1)
  ((xs.find? first).orElse fun _ => xs.head?).map Prod.fst

/-- The cores of a partition whose next chunk can issue now, with the meters that it passes. -/
def contenders (s : State) (p : Fin 24) : List (CoreKey × List Nat) :=
  ((s.cores.map fun e => (e.1, s.focus e.1)).filter fun e => e.2.core.act.part == p && s.clocked e.1 && chunkReady e.2).map fun e =>
    (e.1, chunkMeters e.2)

/-- One admission at the meters of the partition of core `k` (R391, R392): the core's next chunk issues where its request stands first, and
what more the meters admit in this tick follows; another core's stands before it else. -/
def chunkAdmit (k : CoreKey) (s : State) : State :=
  match roundRobin (s.part (s.coreAt k).act.part) (contenders s (s.coreAt k).act.part) with
  | none => s
  | some x =>
    if x = k then { chunkIssue (s.focus k) with agenda := .chunkRequest k :: (chunkIssue (s.focus k)).agenda }
    else { s with agenda := .chunkRequest x :: .chunkRequest k :: s.agenda }

/-- CHUNK_REQUEST (R391, R392). -/
def execChunkRequest (k : CoreKey) (s : State) : Res := .next (settle s (chunkAdmit k s))

/-! ### At the producer (R380, R383, R394, R396) -/

/-- What the producer's port engine answers: 0 served with the bytes, 1 withdrawn, 2 deferred, 3 uncorrectable error. -/
inductive Served where
  | wait
  | answer (outcome : Nat) (data : List Byte)
  deriving DecidableEq, Repr

/-- The context's issue has stopped for a save (R383). -/
def Ctx.stoppedForSave (c : Ctx) : Bool := c.st == .preempted || c.st == .parked || c.phase == .boundary

/-- Makes the record RECLAIMED with FLT = 1 (R396). -/
def faultBlock (block : BitVec 32) (s : State) : State :=
  s.modCore fun c => { c with port := c.port.modBlock block fun b => { b with st := 6, flt := true } }

/-- Reads bytes of a block of the producer in view (R394, R396). -/
def blockRead (b : Block) (block : BitVec 32) (off n : Nat) (s : State) : State × Served :=
  if b.spm then
    let a := b.loc.toNat % 2 ^ 22 + off
    match touch a n s with
    | (s1, .wait) => (s1, .wait)
    | (s1, .fault _ r _) => if r = errorReason then (s1, .answer 3 []) else (faultBlock block s1, .answer 1 [])
    | (s1, .ok) => (s1, if s1.core.badAt a n then .answer 3 [] else .answer 0 (s1.core.spRead a n))
  else
    match bridgeBytes s (b.loc + BitVec.ofNat 64 off) n with
    | none => (faultBlock block s.drawn, .answer 1 [])
    | some [] => if n = 0 then (s, .answer 0 []) else (s.drawn, .wait)
    | some pas => (s.drawn, if pas.any s.lineBad then .answer 3 [] else .answer 0 (pas.map s.rd))
where
  /-- Physical addresses of bytes of the partition, none on a fault, empty where a walk waits. -/
  bridgeBytes (s : State) (g : Word) (n : Nat) : Option (List Nat) :=
    let ws := (List.range n).map fun i => (s.walk s.core.act.part (vaOf (g + BitVec.ofNat 64 i)), vaOf (g + BitVec.ofNat 64 i))
    if ws.any fun w => match w.1 with | .fault _ _ => true | _ => false then none
    else if ws.any fun w => w.1 == .migrating then some []
    else some (ws.map fun w => match w.1 with | .leaf l => l.pa_ w.2 | _ => 0)

/-- A pull claims the block (R383). -/
def Block.claim (pull : Nat) (x : Block) : Block :=
  { x with claims := if x.claims.contains pull then x.claims else x.claims ++ [pull] }

/-- A request of a pull has been served: the record is PULLING (R380), and the claim ends with the last chunk, unless one answered in error
is to be asked for again (R383, R396). -/
def Block.serve (pull off : Nat) (last bad : Bool) (done : Nat) (x : Block) : Block :=
  let owed := (if bad then [(pull, off)] else []) ++ x.owed.filter (· != (pull, off))
  let served := if last && !x.served.contains pull then x.served ++ [pull] else x.served
  let y := { x with st := if x.st = 1 ∨ x.st = 2 then 3 else x.st, reads := Nat.max x.reads done, owed := owed, served := served }
  if served.contains pull && !(owed.any (·.1 == pull)) then y.unclaim pull else y

/-- The port engine's next request to serve is answered. -/
def Port.answered (w : Nat × Nat × Nat) (p : Port) : Port := { p with waits := p.waits.filter (· != w) }

/-- Judges a chunk request at the producer in view on its arrival: RECL, a reused record, a stop for a save (R394). The engine then serves
what it has begun in arrival order, as the mesh takes its bytes (R428). `lost` says that a beat of the data exhausts its retries: the answer
is the error, and the request is to be made again (R27, R396). -/
def judgeChunk (lost : Bool) (block : BitVec 32) (claim : Nat) (first last : Bool) (off n : Nat) (s : State) : State × Served :=
  let w := (block.toNat, claim, off)
  let begun := s.core.port.waits.contains w
  let gone := s.modCore fun c => { c with port := c.port.answered w }
  match s.core.port.block? block with
  | none => (gone, .answer 1 [])
  | some b =>
    if !begun && !b.pinned then (s, .answer 1 [])
    else if !begun && !b.claims.contains claim && (!first || s.saving || s.core.act.stoppedForSave) then (s, .answer 2 [])
    else
      let s0 := if begun then s else s.modCore fun c =>
        { c with port := { (c.port.modBlock block (Block.claim claim)) with waits := c.port.waits ++ [w] } }
      if s0.core.port.waits.head? ≠ some w ∨ s0.meshOpen s.key s.core.act.part n = false then (s0, .wait)
      else
        match blockRead b block off n s0 with
        | (s1, .wait) => (s1, .wait)
        | (s1, .answer o' d') =>
          let o := if o' = 0 ∧ lost = true then 3 else o'
          let d := if o' = 0 ∧ lost = true then [] else d'
          let s2 := s1.modCore fun c => { c with port := c.port.answered w }
          if o = 1 then (s2, .answer o d)
          else
            let done := Nat.max s.time s.core.port.freeAt + (n + 255) / 256
            ((s2.meshTake s.key s.core.act.part n).modCore fun c => { c with port :=
              { (c.port.modBlock block (Block.serve claim off last (o == 3) done)) with freeAt := done } }, .answer o d)

/-- A producer that is on no core answers deferred while it is saved, withdrawn when it is gone. -/
def absentAnswer (src : PortName) (s : State) : Nat := if (s.savedPort src).isSome then 2 else 1

/-- Ticks from the judgement to the answer at the consumer (R394). -/
def answerDelay (outcome hops size start now : Nat) : Nat :=
  if outcome = 1 ∨ outcome = 2 then 8 + 25 * hops else (start - now) + 8 + 25 * hops + (size + 255) / 256

/-- What another device's producer answers is open: served with some bytes, withdrawn, deferred or in error. What it has
answered once, it keeps to (R380, R383). -/
def awayAnswer (x : Chunk) (fate : Nat) (s : State) : Nat × List Byte :=
  let pick := s.choose 4
  let o := if fate ≠ 0 then fate else if pick = 2 ∧ x.first = false then 0 else pick
  (o, if o = 0 then (List.range x.size).map fun i => BitVec.ofNat 8 (Config.pick (s.seed + 32 * (1 + i))) else [])

/-- Records an answer of another device in the pull. -/
def setFate (x : Chunk) (o : Nat) (s : State) : State :=
  s.modAt x.key fun c => { c with port := { c.port with pulls := c.port.pulls.map fun q =>
    if q.id = x.pull ∧ (o = 1 ∨ o = 2) then { q with fate := o } else q } }

/-- The answer of a chunk goes to its consumer. -/
def answerChunk (x : Chunk) (o : Nat) (data : List Byte) (late start : Nat) (s : State) : State :=
  ({ s with chunks := s.chunks.map fun (y : Chunk) => if y.id = x.id then { y with outcome := o, data := data } else y } : State).at
    (s.time + answerDelay o x.hops x.size start s.time + late) (.chunkLanded x.id)

/-- A request of a pull of another device that is made again leaves, as a first one does: it waits for its port and its routing entry
(R409, R411); then it reaches the producer 4 + 26h ticks later (R394). -/
def askAgain (x : Chunk) (pull : Option Pull) (s : State) : State :=
  match pull, (s.coreAt x.key).port.notice? x.idx with
  | some q, some (n, _) =>
    if q.canLeave n s then
      ({ s with chunks := s.chunks.map fun (y : Chunk) => if y.id = x.id then { y with asks := false } else y
                out := s.out ++ [.chunkAsk n.peer n.block x.off x.size] } : State).at (s.time + 4 + 26 * x.hops) (.chunkServe (.here x.id))
    else s.at (s.time + 1) (.chunkServe (.here x.id))
  | _, _ => s

/-- What the producer of this device in view answers: between plies the plan must give the partition slots (R361), and a beat of the data may
exhaust its retries (R27, R356). -/
def serveNear (x : Chunk) (last : Bool) (k : CoreKey) (s : State) : State × Served :=
  let far := plyOf x.key.cl.val != plyOf k.cl.val
  if far && !s.planned [(plyOf x.key.cl.val).val, (plyOf k.cl.val).val] x.src.part.val then (s, .wait)
  else
    judgeChunk (far && Config.beatLost s.seed) x.block (claimOf false x.pull) x.first last x.off x.size s.drawn

/-- Ticks that failed beats add to a chunk between plies (R356). -/
def chunkLate (x : Chunk) (k : CoreKey) (s : State) : Nat :=
  if plyOf x.key.cl.val = plyOf k.cl.val then 0 else s.late (plyOf k.cl.val).val x.src.part.val

/-- A request of this device reaches its producer. -/
def serveHere (id : Nat) (s : State) : State :=
  match s.chunks.find? fun x => x.id == id with
  | none => s
  | some x =>
    let pull := (s.coreAt x.key).port.pulls.find? fun q => q.id == x.pull
    if x.asks then askAgain x pull s
    else if x.hops ≠ 0 ∨ (((s.coreAt x.key).port.notice? x.idx).map fun n => n.1.peer != 4095) = some true then
      let r := awayAnswer x ((pull.map fun q => q.fate).getD 1) s
      let s1 := setFate x r.1 { s with draws := s.draws + 1 + x.size }
      (answerChunk x r.1 r.2 0 s.time s1)
    else
      let last := match pull with
        | some q => x.n + 1 == q.count
        | none => false
      match s.portCore x.src with
      | none => answerChunk x (absentAnswer x.src s) [] 0 s.time s
      | some k =>
        let s1 := s.focus k
        let start := Nat.max s.time s1.core.port.freeAt
        match serveNear x last k s1 with
        | (s2, .wait) => s2.at (s.time + 1) (.chunkServe (.here id))
        | (s2, .answer o d) => answerChunk x o d (chunkLate x k s2) start s2.drawn.drawn

/-- An answer goes to the device that asked, on the path that its block id gives (R410, entry 86). -/
def answerChunkAway (src tag : Nat) (block : BitVec 32) (o : Nat) (d : List Byte) (s : State) : State :=
  answerAway src (block.getLsbD 0) (.chunkData tag o d) s

/-- CHUNK_SERVE (R394): a request of this device, or one that another device sends. -/
def execChunkServe (r : ChunkReq) (s : State) : Res :=
  .next (settle s (match r with
    | .here id => serveHere id s
    | .arrives src dst block pull first last off size tag =>
      match s.portCore dst with
      | none => answerChunkAway src tag block (absentAnswer dst s) [] s
      | some k =>
        match judgeChunk false block (claimOf true pull) first last off size (s.focus k) with
        | (s1, .wait) => s1.at (s.time + 1) (.chunkServe r)
        | (s1, .answer o d) => answerChunkAway src tag block o d s1))

/-! ### Landing (R385, R395, R396) -/

def State.dropChunk (s : State) (id : Nat) : State := { s with chunks := s.chunks.filter fun x => x.id != id }

/-- Changes the pull of a chunk at its consumer, which is in view. -/
def State.modPull (s : State) (id : Nat) (f : Pull → Pull) : State :=
  s.modCore fun c => { c with port := { c.port with pulls := c.port.pulls.map fun q => if q.id = id then f q else q } }

/-- One request is answered. -/
def oneAnswered (s : State) : State :=
  s.modCore fun c => { c with port := { c.port with outstanding := c.port.outstanding - 1 } }

/-- The agent's fields of a reason-8 record of a landing (R296). -/
def landCreditor (s : State) (n : Notice) (q : Pull) : Creditor :=
  { ctxid := s.core.act.id s.key, einfo := BitVec.ofNat 64 q.idx, gva := n.loc, detail0 := n.block.setWidth 64,
    detail1 := 2 ^ 8 + q.h.val }

/-- The pull ends once every chunk is resolved: LANDED with its completion, or WITHDRAWN with the rest credited (R385). -/
def pullEnds (id : Nat) (s : State) : State :=
  match s.core.port.pulls.find? fun q => q.id == id with
  | none => s
  | some q =>
    if q.resolved < q.count then s
    else
      match s.core.port.notice? q.idx with
      | none => s
      | some (n, src) =>
        let gone (s : State) : State := s.modCore fun c =>
          { c with port := { c.port with pulls := c.port.pulls.filter fun y => y.id != id } }
        if q.withdrawn then
          creditHandle q.h (n.size - q.credited) true (landCreditor s n q)
            (gone (s.modCore fun c => { c with port := c.port.setEntry q.idx (.notice n src 6 n.loc 0) }))
        else
          sendRelease src n.peer n.block
            (gone (s.modCore fun c => { c with port := c.port.setEntry q.idx (.notice n src 4 (BitVec.ofNat 64 q.base) 0) }))

/-- The first chunk is deferred: the notice is ranked again after 4,096 ticks, and the space goes back (R385, R386). -/
def pullDeferred (q : Pull) (n : Notice) (src : PortName) (s : State) : State :=
  (s.modCore fun (c : Core) => { c with port := Port.rerank { c.port with
      idleFrom := Nat.max c.port.idleFrom (s.time + 1),
      pulls := (c.port.pulls.filter fun (y : Pull) => y.id != q.id),
      inb := c.port.inb.map fun e =>
        if e.idx = q.idx then { e with e := .notice n src 2 n.loc (s.time + 4096) }
        else if e.idx = q.buf then
          { e with e := InEntry.giveBack q.took e.e }
        else e } }).at (s.time + 4096) (.deferralExpiry s.key (Fin.ofNat 512 q.idx))

def State.modChunk (s : State) (id : Nat) (f : Chunk → Chunk) : State :=
  { s with chunks := s.chunks.map fun x => if x.id = id then f x else x }

/-- What becomes at a save of a pull whose chunk a fault holds back, since a frame holds no PULLING notice (R399, entry 30): with no byte
credited it is deferred, else the chunk counts as withdrawn, and an abandon ends its claim. The chunk is no replay entry any more. -/
def pullGivenUp (x : Chunk) (s : State) : State :=
  let s1 := clearReplay (replayReq x.id) (oneAnswered (s.dropChunk x.id))
  match s1.core.port.pulls.find? fun q => q.id == x.pull with
  | none => s1
  | some q =>
    match s1.core.port.notice? q.idx with
    | none => s1
    | some (n, src) =>
      let s2 := sendAbandon src n q.id s1
      if q.credited = 0 then pullDeferred q n src s2
      else pullEnds q.id (s2.modPull q.id fun y => { y with resolved := y.resolved + 1, withdrawn := true })

/-- The pulls of the core in view that faults hold back, at a save. -/
def heldPullsEnd (s : State) : State := (s.chunks.filter fun x => x.key == s.key && x.held).foldl (fun s x => pullGivenUp x s) s

/-- A chunk whose landing traps is kept for its replay (R92, R396); in the drain of a save the trap is a record (R83). -/
def chunkTrap (t : Trap) (x : Chunk) (s : State) : State :=
  if s.saving then pullGivenUp x (pushRecord s.core.act.part (trapRecord s t) s)
  else landingTrap t (some (replayReq x.id)) (s.modChunk x.id fun y => { y with held := true })

/-- Bytes of a chunk are written into the landing buffer and credited (R395). -/
def landBytes (x : Chunk) (q : Pull) (n : Notice) (s : State) : State :=
  let a := q.base + x.off
  match touch a x.size s with
  | (s1, .wait) => s1.at (s.time + 1) (.chunkLanded x.id)
  | (s1, .fault g r l) =>
    chunkTrap (accessTrap 5 g g r l) x s1
  | (s1, .ok) =>
    let s2 := (s1.modCore fun c => c.spWrite a x.data).count 11 x.size
    let s3 := creditHandle q.h x.size true (landCreditor s2 n q) s2
    pullEnds q.id (clearReplay (replayReq x.id) (((oneAnswered s3).dropChunk x.id).modPull q.id fun y =>
      { y with resolved := y.resolved + 1, credited := y.credited + x.size }))

/-- An answer reaches the consumer in view. -/
def chunkArrives (x : Chunk) (s : State) : State :=
  match s.core.port.pulls.find? fun q => q.id == x.pull with
  | none => oneAnswered (s.dropChunk x.id)
  | some q =>
    match s.core.port.notice? q.idx with
    | none => oneAnswered (s.dropChunk x.id)
    | some (n, src) =>
      match x.outcome with
      | 0 => landBytes x q n s
      | 1 =>
        pullEnds q.id (((oneAnswered s).dropChunk x.id).modPull q.id fun y =>
          { y with resolved := y.resolved + 1, withdrawn := true })
      | 2 => pullDeferred q n src (oneAnswered (s.dropChunk x.id))
      | _ => chunkTrap ⟨0x13, 5, n.loc + BitVec.ofNat 64 x.off, 0, 0⟩ x s

/-- CHUNK_LANDED (R395, R396). -/
def execChunkLanded (id : Nat) (s : State) : Res :=
  .next (settle s (match s.chunks.find? fun x => x.id == id with
    | none => s
    | some x => chunkArrives x (s.focus x.key)))

/-- A chunk request that is a replay entry is made again (R92, R396); one of another device's pull leaves through its port again. -/
def resendChunk (id : Nat) (s : State) : State :=
  match s.chunks.find? fun x => x.id == id with
  | none => s
  | some x =>
    let away := (s.coreAt x.key).port.notice? x.idx |>.any fun n => n.1.peer != 4095
    let s1 := s.modChunk id fun y => { y with held := false, asks := away && x.outcome != 0 }
    if x.outcome = 0 then s1.at (s.time + 1) (.chunkLanded id)
    else if away then s1.at (s.time + 1) (.chunkServe (.here id))
    else s1.at (s.time + 4) (.chunkServe (.here id))

/-- A notice that its port lets go unpulled is declined. -/
def declineSlot (s : State) (e : InSlot) : State :=
  match e.e with
  | .notice n src st _ _ => if st = 1 ∨ st = 2 then sendRelease src n.peer n.block s else s
  | _ => s

/-- END or KILL: ARRIVED and RANKED notices are freed and declined, and those that the hold list keeps for the port (R378, R385). -/
def declineAll (s : State) : State :=
  let gone (e : InSlot) : Bool := e.state == 1 || e.state == 2
  refuseHeld s.core.act.part s.core.act.named
    ((s.core.port.inb.foldl declineSlot s).modCore fun c => { c with port := { c.port with inb := c.port.inb.filter fun e => !gone e } })

end Sys2Proof.Machine
end

