-- ==== Sys2Proof/Machine/LinkEvents.lean ====
section
/-! DEFINITION. The canopy: ports, routing entries, remote requests, combining and time beats (R407-R421). -/

namespace Sys2Proof.Machine

/-! ### Ports (R407, R409) -/

/-- Bit of a port's stored word that says that it is training; register reads hide it. -/
def trainBit : Nat := 63

def State.modPortReg (s : State) (n : Fin 64) (f : Word → Word) : State :=
  { s with link := { s.link with ports := s.link.ports.set n (f s.link.ports[n]) } }

/-- Sets the fields UP, ERR and training of a port word. -/
def portBits (up err train : Bool) (w : Word) : Word :=
  (w &&& 0x0FFF0000) ||| BitVec.ofNat 64 (b2n train * 2 ^ trainBit + b2n up * 8 + b2n err * 4)

/-- The port starts training (R409). -/
def portEnable (n : Fin 64) (s : State) : State :=
  s.modPortReg n fun w => if w.getLsbD 3 then w else portBits false (w.getLsbD 2) true w

/-- PORT_ENABLE (R409). -/
def execPortEnable (n : Fin 64) (s : State) : Res := .next (settle s (portEnable n s))

/-- A remote request whose first link is port `n` and that has not left (R409). -/
def waitsAt (s : State) (n : Nat) (r : Req) : Bool :=
  match r.remote with
  | some pos => r.sent == 0 && !r.applied && r.bad == 0 && !r.held && s.firstPort pos (r.gva.getLsbD 7) == some n
  | none => false

/-- A port stops carrying traffic: its waiting requests return as negative replies with reason 4 (R409). -/
def portFails (n : Fin 64) (err : Bool) (s : State) : State :=
  let waiting := s.reqs.filter (waitsAt s n.val)
  let s1 := s.modPortReg n fun w => portBits false (err || w.getLsbD 2) false w
  waiting.foldl (fun s r => (applyBad r 4 s).soon (replyEvent r)) s1

/-- PORT_DISABLE (R409). -/
def execPortDisable (n : Fin 64) (s : State) : Res := .next (settle s (portFails n false s))

/-- PORT_DOWN (R409): retries were exhausted. -/
def execPortDown (n : Fin 64) (s : State) : Res :=
  .next (settle s (if s.link.ports[n].getLsbD 3 then portFails n true s else s))

/-- The neighbour that a graph port must find (R407). -/
def State.expects (s : State) (n : Nat) : Option Nat := if n < 60 then (neighbours s.link.pos)[n]? else none

/-- PORT_TRAINED (R407, R409): a port that finds another position stays down. -/
def portTrained (n : Fin 64) (nbr : Nat) (s : State) : State :=
  if !s.link.ports[n].getLsbD trainBit then s
  else
    let ok := if n.val < 60 then s.expects n.val == some nbr else true
    s.modPortReg n fun w =>
      (portBits ok (!ok || w.getLsbD 2) false w &&& ~~~0x0FFF0000#64) ||| BitVec.ofNat 64 (nbr % 4096 * 65536)

def execPortTrained (n : Fin 64) (nbr : Nat) (s : State) : Res := .next (settle s (portTrained n nbr s))

/-- A write of PORTn (R409): ERR is cleared first; CMD 0 and 3 have no effect. -/
def portWrite (n : Fin 64) (val : Word) (s : State) : State :=
  let s1 := if val.getLsbD 2 then s.modPortReg n fun w => w &&& ~~~4#64 else s
  match fld val.toNat 0 2 with
  | 1 => portEnable n s1
  | 2 => portFails n false s1
  | _ => s1

/-- A write of STANDCFG (R408, R421): while JOIN is 1 only MASTER, from the next time beat on. -/
def standcfgWrite (val : Word) (s : State) : State :=
  let w := s.link.standcfg &&& ~~~(val &&& 0x10000000)
  if s.link.join then
    { s with link := { s.link with standcfg := w, newMaster := some (fld val.toNat 36 12) } }
  else { s with link := { s.link with standcfg := mergeBits w val 0x0000FFF008000FFF, newMaster := none } }

/-! ### Routing entries (R410, R411) -/

/-- Position of the device that a chunk's pull draws on, 4,095 for this one. -/
def State.chunkPeer (s : State) (x : Chunk) : Nat :=
  match (s.coreAt x.key).port.notice? x.idx with
  | some (n, _) => n.peer
  | none => 4095

/-- A request or chunk toward position `n` is outstanding: sent, and not answered. What a negative reply or an error has answered is
not, though it is kept for its replay (R411). -/
def State.towardBusy (s : State) (n : Nat) : Bool :=
  (s.reqs.any fun r => r.remote == some n && r.sent != 0 && !r.held) || s.chunks.any fun x => s.chunkPeer x == n && !x.held && !x.asks

/-- Writes a routing entry once nothing is outstanding toward its position; a waiting write is tried each tick. -/
def routeDue (n : Nat) (s : State) : State :=
  match s.link.routePend.find? fun r => r.1 == n with
  | none => s
  | some r =>
    if s.towardBusy n then s
    else { s with link := { s.link with routes := insertK s.link.routes n r.2,
                                        routePend := s.link.routePend.filter fun r => r.1 != n } }

/-- Bits of ROUTEn that hold a value (R410). -/
def routeMask : Word := 0xFFFFFFFF00FFFFFF

/-- ROUTE_WRITE (R411). -/
def routeWrite (n : Nat) (x : Word) (s : State) : State :=
  routeDue n { s with link := { s.link with routePend := insertK s.link.routePend n (x &&& routeMask) } }

def execRouteWrite (n : Fin 3541) (val : Word) (s : State) : Res := .next (settle s (routeWrite n.val val s))

/-! ### Remote requests (R413-R417) -/

/-- Tokens of a destination's bucket in 256ths; a bucket that nothing has touched is full (R417). -/
def reqTokens (p : Part) (n : Nat) : Nat := lookupD p.reqbuckets n (16 * 256)

/-- The reason that a reply gives for an uncorrectable error of the line (R242). -/
def errorReply : Nat := 0x13

/-- What a target may answer an operation: success, the reasons of R414, of which 2 is of stores and atomics, and the error that a
consuming access meets (R242). -/
def remoteReasons (k : ReqKind) : List Nat :=
  match k with
  | .load | .lda => [0, 1, 3, 4, errorReply]
  | .store | .stl => [0, 1, 2, 3, 4]
  | _ => [0, 1, 2, 3, 4, errorReply]

/-- What a remote target answers is open: a negative reply with a reason, or success with some value and the tag of its line
(R223, R242, R414). -/
def remoteAnswer (r : Req) (s : State) : State :=
  let why := (remoteReasons r.kind).getD (s.choose (remoteReasons r.kind).length) 0
  let v := Config.pick (s.seed + 32 * 1) % 2 ^ (8 * r.size)
  let tag := BitVec.ofNat 32 (Config.pick (s.seed + 32 * 2))
  let again := Config.pick (s.seed + 32 * 3) % 2 == 1
  let s1 := { s with draws := s.draws + 4 }
  if why ≠ 0 then s1.modReq r.id fun q => { q with bad := why, sent := s.time }
  else
    match r.kind with
    | .cas cmp => s1.modReq r.id fun q =>
        { q with applied := true, data := v, okay := decide (v = cmp.toNat % 2 ^ (8 * r.size)), sent := s.time, tag := tag, refill := again }
    | .store | .stl => s1.modReq r.id fun q => { q with applied := true, sent := s.time, tag := tag, refill := again }
    | _ => s1.modReq r.id fun q => { q with applied := true, data := v, sent := s.time, tag := tag, refill := again }

/-- SHARE (R417). -/
def Part.share (p : Part) : Nat := fld p.reqctl.toNat 0 8

/-- An earlier request of the context to the same line of position `pos` has not left: requests of one context to one line take one path
in program order, but for accesses whose alias classes leave them unordered (R224, R236, R411). -/
def State.earlierRemote (s : State) (r : Req) (pos : Nat) : Bool :=
  s.reqs.any fun q => decide (q.id < r.id) && q.remote == some pos && q.key == r.key && q.ctx == r.ctx &&
    q.gva.toNat / 128 == r.gva.toNat / 128 && q.sent == 0 && !q.applied && q.bad == 0 && !q.held &&
    (q.cls == 0 || r.cls == 0 || q.cls == r.cls)

/-- A request leaves with its token (R417); what its target answers is open. -/
def remoteSent (r : Req) (pos : Nat) (s : State) : State :=
  let s1 := s.modPart r.part fun p => { p with reqbuckets := insertK p.reqbuckets pos (reqTokens p pos - 256) }
  let s2 := { s1 with out := s1.out ++ [.remote pos (BitVec.ofNat 16 (s.part r.part).partstid.toNat) r.id r.gva
    (r.kind == .atom .add && (s.part r.part).reqctl.getLsbD 8)] }
  (remoteAnswer r s2).later 1 (replyEvent r)

/-- One of this device's requests tries to leave: it waits for its routing entry, for a token and for the requests ahead of it, and fails
where its path is down (R224, R236, R409, R411, R414, R417, R428). A partition with SHARE 0 sends none. -/
def remoteLeaves (id : Nat) (s : State) : State :=
  match s.req? id with
  | none => s
  | some r =>
    match r.remote with
    | none => s
    | some pos =>
      if r.sent ≠ 0 ∨ r.applied = true ∨ r.bad ≠ 0 ∨ r.held = true then s
      else if s.routeWaits pos || (s.part r.part).share == 0 ||
          decide (reqTokens (s.part r.part) pos < 256) || s.earlierRemote r pos then
        s.at (s.time + 1) (.remoteRequest (.leaves id))
      else if !s.pathUp pos (r.gva.getLsbD 7) then (applyBad r 4 s).later 1 (replyEvent r)
      else
        match s.inject r with
        | none => s.at (s.time + 1) (.remoteRequest (.leaves id))
        | some s1 => remoteSent r pos s1

/-- Whether the operation writes. -/
def RemoteOp.writes : RemoteOp → Bool
  | .ld | .lda => false
  | _ => true

/-- The operation at the home slice `home`: the value it returns. -/
def remoteApply (op : RemoteOp) (home pa n : Nat) (v : Word) (s : State) : State × Nat :=
  let old := ofBytes (s.rdN pa n)
  let w (s : State) (x : Nat) : State := ((refillLine pa s).reached home pa).sliceWrite pa (toBytes n x)
  match op with
  | .ld | .lda => (s.reached home pa, old)
  | .st | .stl => (w s v.toNat, 0)
  | .atom a => (w s (atomNew a n old (v.toNat % 2 ^ (8 * n))), old)
  | .cas cmp => if old = cmp.toNat % 2 ^ (8 * n) then (w s v.toNat, old) else (s.reached home pa, old)

/-- Translation of a remote access in the partition that serves it: the address, or the reason of the refusal. -/
inductive Target where
  | ok (pa : Nat)
  | wait
  | refused (reason : Nat)
  deriving DecidableEq, Repr

def remoteTarget (stid : BitVec 16) (write : Bool) (gva : Word) (s : State) : Target :=
  match s.stidPart stid with
  | none => .refused 4
  | some p =>
    match s.walk p (vaOf gva) with
    | .leaf l => if write && !l.w then .refused 2 else .ok (l.pa_ (vaOf gva))
    | .fault r _ => .refused r
    | .migrating => .wait

/-- Home slice of a line that another device's request names, in the partition that serves it (R220, R414). -/
def State.stidHome (s : State) (stid : BitVec 16) (gva : Word) : Nat := ((s.stidPart stid).map fun p => s.home p (vaOf gva)).getD 0

/-- A beat of other devices is passed on toward position `pos`, or toward the intermediate that it has still to reach, by this router's own
routing entry; none where no port leads there (R410). -/
def passOn (pos : Nat) (via : Option Nat) (beat : Instr) (s : State) : Option State :=
  (s.transitPort (s.nextStop pos via)).map fun i => { s with out := s.out ++ [.forward i beat] }

/-- The reply to a request of position `src`, by the intermediate that bit 7 of its GVA names (R410, R414, entry 86). -/
def replyAway (src : Nat) (gva : Word) (o : Out) (s : State) : State := answerAway src (gva.getLsbD 7) o s

/-- A request of another device reaches this one (R414); the reply carries the line's tag after its step (R223). One that names another
position is in transit (R410). -/
def remoteArrives (src : Nat) (via : Option Nat) (stid : BitVec 16) (op : RemoteOp) (gva : Word) (n : Nat) (v : Word) (tag : Nat)
    (s : State) : State :=
  let again : RemoteReq := .arrives src (via.filter (· != s.link.pos)) stid op gva n v tag
  let reply (s : State) (why : Nat) (x : Nat) (line : BitVec 32) : State :=
    replyAway src gva (.remoteReply tag why (BitVec.ofNat 64 x) line) s
  if !s.ownDevice (peerOf gva) then (passOn (peerOf gva) via (.remoteRequest again) s).getD (reply s 4 0 0)
  else match remoteTarget stid (RemoteOp.writes op) gva s with
  | .wait => s.drawn.at (s.time + 256) (.remoteRequest again)
  | .refused r => reply s.drawn r 0 0
  | .ok pa =>
    let plain := match op with | .st | .stl => true | _ => false
    if s.lineBad pa && !plain then reply s.drawn errorReply 0 0
    else
      let r := remoteApply op (s.stidHome stid gva) pa n v s.drawn
      reply r.1 0 r.2 (r.1.line pa).tag

/-- REMOTE_REQUEST (R414, R417). -/
def execRemoteRequest (r : RemoteReq) (s : State) : Res :=
  .next (settle s (match r with
    | .leaves id => remoteLeaves id s
    | .arrives src via stid op gva size data tag => remoteArrives src via stid op gva size data tag s))

/-- REMOTE_TIMEOUT (R414): no reply within 2^20 ticks of the issue is a negative reply with reason 4. -/
def execRemoteTimeout (id : Nat) (s : State) : Res :=
  .next (settle s (match s.req? id with
    | none => s
    | some r =>
      if r.remote.isSome && !r.held && decide (r.issue + 2 ^ 20 ≤ s.time) then
        (s.modReq id fun q => { q with applied := false, bad := 4, sent := s.time }).soon (replyEvent r)
      else s))

/-! ### Combining (R418, R419) -/

/-- Answers of a group's members (R419): the value before each addition, and the tag after its last step, `tag` standing before the
group's first. -/
def splitReplies (n : Nat) : Nat → BitVec 32 → List (Combined × Word) → List (Combined × Nat × BitVec 32)
  | _, _, [] => []
  | old, tag, (m, v) :: rest =>
    let tag' := tag + BitVec.ofNat 32 m.adds
    (m, old, tag') :: splitReplies n ((old + v.toNat % 2 ^ (8 * n)) % 2 ^ (8 * n)) tag' rest

/-- Sum of a group's operands, and the number of additions that it stands for. -/
def groupSum (n : Nat) (ms : List (Combined × Word)) : Nat := (ms.map fun m => m.2.toNat).sum % 2 ^ (8 * n)
def groupAdds (ms : List (Combined × Word)) : Nat := (ms.map fun m => m.1.adds).sum

/-- The members' additions as consecutive steps of the line's order, with no other step between them: the tag rises by their number
(R419). -/
def applyMembers (home pa n : Nat) (ms : List (Combined × Word)) (s : State) : State :=
  let r := (remoteApply (.atom .add) home pa n (BitVec.ofNat 64 (groupSum n ms)) s).1
  { r with lines := insertK r.lines (pa / 128) { r.line pa with tag := (r.line pa).tag + BitVec.ofNat 32 (groupAdds ms - 1) } }

/-- Replies to every member. -/
def replyMembers (gva : Word) (why : Nat) (xs : List (Combined × Nat × BitVec 32)) (s : State) : State :=
  xs.foldl (fun s x => replyAway x.1.src gva (.remoteReply x.1.tag why (BitVec.ofNat 64 x.2.1) x.2.2) s) s

/-- The intermediate that a group has still to reach: that of its first member (R418). -/
def Group.via (g : Group) : Option Nat := g.members.head?.bind fun m => m.1.via

/-- A group closes and leaves its router (R418): toward the home slice of this device, or on toward its target on the path of its first
member, whose answer is open. -/
def groupClose (g : Group) (s : State) : State :=
  let n := sizeD g.dbl
  let others := s.link.groups.filter fun x => x.id != g.id
  let s0 := { s with link := { s.link with groups := others } }
  let refuse (why : Nat) (s : State) : State := replyMembers g.gva why (g.members.map fun m => (m.1, 0, 0)) s
  if s.ownDevice (peerOf g.gva) then
    match remoteTarget g.stid true g.gva s with
    | .wait => { s.drawn with link := { s.link with groups := { g with closed := true } :: others } }.at (s.time + 256)
        (.combineGroupClose g.id)
    | .refused r => refuse r s0.drawn
    | .ok pa =>
      if s.lineBad pa then refuse errorReply s0.drawn
      else
        let t := applyMembers (s.stidHome g.stid g.gva) pa n g.members s0.drawn
        replyMembers g.gva 0 (splitReplies n (ofBytes (s.rdN pa n)) ((t.line pa).tag - BitVec.ofNat 32 (groupAdds g.members)) g.members) t
  else
    match s.transitPort (s.nextStop (peerOf g.gva) g.via) with
    | none => refuse 4 s0
    | some i =>
      let s1 := { s0 with out := s0.out ++ [.combined i (g.via.filter (· != s.link.pos)) g.gva g.stid g.dbl
                            (BitVec.ofNat 64 (groupSum n g.members)) (groupAdds g.members)],
                          draws := s0.draws + 3 }
      let why := (remoteReasons (.atom .add)).getD (s.choose 6) 0
      if why ≠ 0 then refuse why s1
      else replyMembers g.gva 0 (splitReplies n (Config.pick (s.seed + 32 * 1) % 2 ^ (8 * n)) (BitVec.ofNat 32 (Config.pick (s.seed + 32 * 2))) g.members) s1

/-- COMBINE_GROUP_CLOSE (R418): 64 ticks after it opened. -/
def execCombineGroupClose (id : Nat) (s : State) : Res :=
  .next (settle s (match s.link.groups.find? fun g => g.id == id with
    | none => s
    | some g => if g.openedAt + 64 ≤ s.time then groupClose g s else s))

/-- A combinable addition reaches this device's router: it joins the open group of its STID, GVA and size, or opens one
(R418). -/
def combineArrives (stid : BitVec 16) (gva : Word) (dbl : Bool) (v : Word) (m : Combined) (s : State) : State :=
  match s.link.groups.find? fun g =>
      g.stid == stid && g.gva == gva && g.dbl == dbl && !g.closed && decide (g.members.length < 32) with
  | some g =>
    let g' := { g with members := g.members ++ [(m, v)] }
    let s1 := { s with link := { s.link with groups := s.link.groups.map fun x => if x.id = g.id then g' else x } }
    if g'.members.length = 32 then groupClose g' s1 else s1
  | none =>
    let g : Group := { id := s.newId, stid := stid, gva := gva, dbl := dbl, openedAt := s.time, closed := false, members := [(m, v)] }
    { s.drawn with link := { s.link with groups := s.link.groups ++ [g] } }.at (s.time + 64) (.combineGroupClose g.id)

/-- COMBINE_ARRIVAL (R418); arrivals of one tick stand in the order of their ports. -/
def execCombineArrival (_port : Fin 60) (stid : BitVec 16) (gva : Word) (dbl : Bool) (v : Word) (m : Combined) (s : State) : Res :=
  .next (settle s (combineArrives stid gva dbl v m s))

/-! ### Time beats (R420, R421) -/

/-- TIME_BEAT (R420, R421): SYNC says whether the estimate is within the bound, SERR keeps that it was not; a new MASTER
takes effect. -/
def timeBeat (within : Bool) (s : State) : State :=
  if !s.link.join then s
  else
    let w := s.link.standcfg
    let w1 := if within then w ||| 0x20000000#64 else (w &&& ~~~0x20000000#64) ||| 0x10000000#64
    let w2 := match s.link.newMaster with
      | some m => (w1 &&& ~~~0xFFF000000000#64) ||| BitVec.ofNat 64 (m % 4096 * 2 ^ 36)
      | none => w1
    { s with link := { s.link with standcfg := w2, newMaster := none } }

def execTimeBeat (within : Bool) (s : State) : Res := .next (settle s (timeBeat within s))

end Sys2Proof.Machine
end

