-- ==== Sys2Proof/Machine/MapEvents.lean ====
section
/-! DEFINITION. The map unit's own steps: fills, table walks with their retries, and the MAPINVC commands
(R260, R261, R263, R266-R268). -/

namespace Sys2Proof.Machine

/-! ### Fills -/

/-- Bytes of line `i` of a granule at `pa`, as the line stood at some moment since the fill began (R261). -/
def fillLine (pa since i : Nat) (s : State) : List Byte :=
  let x := s.pickStamp (pa + 128 * i) 128 since (s.seed + 32 * i)
  (List.range 128).map fun j => s.asOf (pa + 128 * i + j) x

/-- The 32 lines of a granule: partition-local and physical address. -/
def fillLines (va pa : Nat) : List (Nat × Nat) := (List.range 32).map fun i => (va + 128 * i, pa + 128 * i)

/-- Scratchpad bytes of granule `g` that a fill takes from lines with an error mark (R28, R242). -/
def fillBad (g pa : Nat) (s : State) : List Nat :=
  ((List.range 32).filter fun i => s.lineBad (pa + 128 * i)).flatMap fun i =>
    (List.range 128).map fun j => s.core.physOff (4096 * g + 128 * i + j)

/-- A beat of the fill has exhausted its retries on the way from another ply (R27, R356, entry 86). -/
def fillLost (va : Nat) (s : State) : Bool :=
  (fillLines va 0).any (fun l => slicePly (s.home s.core.act.part l.1) != s.key.cl.val / 2) && Config.beatLost (s.seed + 32 * 32)

/-- Installs the 4,096 bytes of granule `g` from its page as the touch translated it (R260, R268). Bytes of lines with an uncorrectable error
are marked, so that what consumes them meets it (R28, R242); a fill that loses a beat installs nothing, and the agents that wait meet the
error (R27). -/
def installFill (g va pa since : Nat) (s : State) : State :=
  let bytes := (List.range 32).flatMap fun i => fillLine pa since i s
  let bad := fillBad g pa s
  let s0 : State := { s with draws := s.draws + 33 }
  if fillLost va s then s0.modCore fun c => { c with gran := insertK c.gran g (.faulted errorReason 0) }
  else
    let s1 := (fillLines va pa).foldl (fun s l => s.reached (s.home s.core.act.part l.1) l.2) s0
    s1.modCore (fun c =>
      let cells := (cellsAt (4096 * g) bytes).map fun (e : Host.Cell) => (c.physOff e.1, e.2)
      { c with spm := c.spm.writes cells, gran := insertK c.gran g .clean, spBad := bad ++ c.spBad.filter fun x => x / 4096 != g })
    |>.count 5 1

/-- The plan gives the partition the slots that the fill needs (R361). -/
def fillOpen (va pa : Nat) (s : State) : Bool :=
  s.planned ((fillLines va pa).flatMap fun l => s.stations (plyOf s.key.cl.val).val s.core.act.part l.1 l.2).eraseDups s.core.act.part.val

/-- The fill of granule `g` ends; without tokens for its bytes, or slots of the plan, it waits (R361, R428). -/
def fillComplete (g : Fin 768) (s : State) : State :=
  match s.core.granSt g, s.core.regionAt (4096 * g.val) with
  | .filling since pa, some (_, r) =>
    let va := vaOf (r.gva + BitVec.ofNat 64 (4096 * g.val - r.spa))
    if s.meshOpen s.key s.core.act.part 4096 && fillOpen va pa s then
      installFill g va pa since (s.meshTake s.key s.core.act.part 4096)
    else s.at (s.time + 1) (.granuleFillComplete s.key g)
  | _, _ => s

/-- GRANULE_FILL_COMPLETE (R260). -/
def execGranuleFillComplete (k : CoreKey) (g : Fin 768) (s : State) : Res := .next (settle s (fillComplete g (s.focus k)))

/-! ### Walks -/

/-- Granules whose write-back waits for the translation of a page. -/
def Core.heldGrans (c : Core) (page : Nat) : List Nat :=
  (List.range 768).filter fun g =>
    match c.granSt g, c.regionAt (4096 * g) with
    | .writing n _, some (_, r) => n == notYetSent && vaOf (r.gva + BitVec.ofNat 64 (4096 * g - r.spa)) / 65536 == page
    | _, _ => false

/-- A table walk ends: a leaf is cached, a fault is left for the access that waits, a STATE 2 entry is walked again after
256 ticks (R266, R267). -/
def walkGoes (page : Nat) (s : State) : State :=
  match s.walk s.core.act.part (page * 65536) with
  | .migrating => s.drawn.at (s.time + 256) (.walkRetry s.key page)
  | .leaf l =>
    let s1 := s.drawn.modCore fun c => (c.dropWalk page).addLeaf l s.seed
    (s1.core.heldGrans page).foldl (fun s g => writeBack g s) s1
  | .fault _ _ =>
    let s1 := s.drawn.modCore fun c => { c.dropWalk page with walks := (page, .ready) :: (c.dropWalk page).walks }
    (s1.core.heldGrans page).foldl (fun s g => writeBack g s) s1

/-- Bytes of the three entries that a walk reads. -/
def walkBytes : Nat := 24

/-- A pending walk ends, once the mesh has tokens for its reads (R428, entry 92), and the plan slots on their way to LPDDR 5X and back
(R361). -/
def walkEnds (page : Nat) (s : State) : State :=
  if s.core.walks.any (fun w => w.1 == page && w.2 == .pending) then
    if s.meshOpen s.key s.core.act.part walkBytes && s.planned [(plyOf s.key.cl.val).val, 12] s.core.act.part.val then
      walkGoes page (s.meshTake s.key s.core.act.part walkBytes)
    else s.at (s.time + 1) (.tableWalk s.key page)
  else s

/-- TABLE_WALK (R264-R266). -/
def execTableWalk (k : CoreKey) (page : Nat) (s : State) : Res := .next (settle s (walkEnds page (s.focus k)))

/-- WALK_RETRY (R266). -/
def execWalkRetry (k : CoreKey) (page : Nat) (s : State) : Res := .next (settle s (walkEnds page (s.focus k)))

/-! ### MAPINVC -/

/-- The physical page that the tables give an address, whatever STATE its entries hold. -/
def State.tablePage (s : State) (pn : Fin 24) (va : Nat) : Nat × Nat :=
  let entry (base i : Nat) : Nat := ofBytes (s.rdN (base + 8 * i) 8)
  let e1 := entry (fld (s.part pn).maproot.toNat 16 24 * 65536) (fld va 40 12)
  let e2 := entry (entryAddr e1) (fld va 28 12)
  if bitOf e2 2 then (entryAddr e2 / 2 ^ 28 * 2 ^ 28, 2 ^ 28) else (entryAddr (entry (entryAddr e2) (fld va 16 12)), 2 ^ 16)

/-- Leaves of the partition in the cores' caches that the command in progress removes. -/
def State.leavesRemoved (s : State) (p : Fin 24) : List Leaf :=
  s.cores.flatMap fun e => e.2.tlb.filter fun l => l.part == p && (s.part p).removes l

/-- A write of MAPINVC tries the waiting fault records and the waiting write-backs again (R263, R271). -/
def mapinvcTries (p : Fin 24) (s : State) : State :=
  let s0 := s.modPart p fun q => { q with fqblocked := false }
  let home := s.key
  let s1 := (s0.cores.map fun e => e.1).foldl (fun s k =>
    let t := s.focus k
    if t.core.act.part = p ∧ t.core.act.st ≠ .empty ∧ t.saving = true then
      (t.core.act.replay.filter fun n => n % 4 == 1).foldl (fun s n => writeBack (n / 4) (clearReplay n s)) t
    else t) s0
  s1.focus home

/-- MAPINVC is written (R268): CMD 0 issues nothing, a write while BUSY or a reserved command sets ERR. -/
def mapinvcWrite (p : Fin 24) (x : Word) (s : State) : State :=
  let q := s.part p
  let cmd := fld x.toNat 0 4
  let bad := decide (cmd ≠ 0) && (q.mapBusy || decide (3 < cmd))
  let s1 := mapinvcTries p (s.modPart p fun q => { q with mapErr := bad || (q.mapErr && !x.getLsbD 4) })
  if cmd = 0 ∨ bad = true then s1
  else
    (s1.modPart p fun q => { q with mapBusy := true, mapCmd := cmd, mapAt := q.mapinva, mapPages := [] }).soon
      (if cmd = 1 then .mapinvcInvalidatePage p else if cmd = 2 then .mapinvcInvalidateAll p else .mapinvcDrainFlush p)

/-- The removal takes at most 256 ticks (R268, entry 5). -/
def startRemoval (p : Fin 24) (s : State) : State :=
  s.drawn.at (s.time + 1 + s.choose 255) (.mapinvcDone p)

/-- MAPINVC_INVALIDATE_PAGE (R268). -/
def execMapinvcInvalidatePage (p : Fin 24) (s : State) : Res :=
  .next (settle s (if (s.part p).mapBusy && (s.part p).mapCmd == 1 then startRemoval p s else s))

/-- MAPINVC_INVALIDATE_ALL (R268). -/
def execMapinvcInvalidateAll (p : Fin 24) (s : State) : Res :=
  .next (settle s (if (s.part p).mapBusy && (s.part p).mapCmd == 2 then startRemoval p s else s))

/-- MAPINVC_DRAIN_FLUSH (R268): the pages that the removed leaves name are noted for the slices' write-back. -/
def execMapinvcDrainFlush (p : Fin 24) (s : State) : Res :=
  .next (settle s (if (s.part p).mapBusy && (s.part p).mapCmd == 3 then
    startRemoval p (s.modPart p fun q => { q with
      mapPages := (s.tablePage p (vaOf q.mapAt) ::
        (s.leavesRemoved p).map fun l => (l.pa, if l.big then 2 ^ 28 else 2 ^ 16)).eraseDups })
  else s))

/-- A request that goes to a home slice of this device. -/
def Req.toMemory (r : Req) : Bool :=
  r.remote.isNone && match r.kind with
    | .peerLoad _ | .peerStore _ | .copyWrite _ _ _ (some _) => false
    | _ => true

/-- Accesses translated by a removed entry that have not completed: requests and fills of the noted pages. -/
def State.pageBusy (s : State) (p : Fin 24) : Bool :=
  let noted (pa : Nat) : Bool := (s.part p).mapPages.any fun g => decide (g.1 ≤ pa) && decide (pa < g.1 + g.2)
  let fills (c : Core) : Bool := c.act.part == p && c.gran.any fun e => match e.2 with
    | .filling _ pa => noted pa
    | _ => false
  (s.reqs.any fun r => r.part == p && r.toMemory && noted r.pa) || s.cores.any fun e => fills e.2

/-- The slices write the lines of a page back and drop them; a marked line stays (R28, R223, R268). -/
def flushPage (g : Nat × Nat) (s : State) : State :=
  s.evictAll fun line => decide (g.1 ≤ 128 * line) && decide (128 * line < g.1 + g.2)

/-- The caches lose the leaves that the command in progress removes. -/
def State.dropLeaves (s : State) (p : Fin 24) : State :=
  let drop (c : Core) : Core := { c with tlb := c.tlb.filter fun l => !(l.part == p && (s.part p).removes l) }
  { s with core := drop s.core, others := s.others.map fun e => (e.1, drop e.2) }

/-- MAPINVC_DONE (R268): no cache holds a removed entry; command 3 also waits for the accesses and the write-back. -/
def execMapinvcDone (p : Fin 24) (s : State) : Res :=
  .next (settle s (
    if !(s.part p).mapBusy then s
    else
      let s1 := s.dropLeaves p
      if (s.part p).mapCmd = 3 ∧ s.pageBusy p = true then s1.at (s.time + 1) (.mapinvcDone p)
      else ((s.part p).mapPages.foldl (fun s g => flushPage g s) s1).modPart p fun q =>
        { q with mapBusy := false, mapCmd := 0, mapPages := [] }))

end Sys2Proof.Machine
end

