-- ==== Sys2Proof/Machine/TileMath.lean ====
section
/-! DEFINITION. What the term engine computes: operands, exact block sums, wide products, scaling, and the cost of a
product (R188-R210). -/

namespace Sys2Proof.Machine

/-! ### Formats -/

/-- Format of an operand code (R189). -/
def opKind : Nat → CKind
  | 0 => .flt .e4m3
  | 1 => .flt .e5m2
  | 2 => .flt .e2m1
  | 3 => .int 4 true
  | 4 => .int 8 true
  | 5 => .flt .bf16
  | _ => .flt .f16

def opWidth : Nat → Nat
  | 0 | 1 | 4 => 8
  | 2 | 3 => 4
  | _ => 16

/-- AFMT and BFMT of a GFMT value (R191). -/
def afmt (g : Word) : Nat := fld g.toNat 0 3
def bfmt (g : Word) : Nat := fld g.toNat 4 3

/-- Narrow and wide pairs (R189). -/
def narrowPair (g : Word) : Bool := decide (afmt g ≤ 4) && decide (bfmt g ≤ 4)
def widePair (g : Word) : Bool := afmt g == bfmt g && (afmt g == 5 || afmt g == 6)

/-- LSB exponent of a narrow pair (R201). -/
def lsbExp (g : Word) : Int :=
  let isInt (c : Nat) : Bool := c == 3 || c == 4
  if afmt g = 1 ∨ bfmt g = 1 then -26
  else if isInt (afmt g) && isInt (bfmt g) then 0
  else if isInt (afmt g) || isInt (bfmt g) then -9
  else -18

/-- Value of an operand element; the E2M1 spare code reads the spare byte as E4M3 (R156, R202). -/
def opValue (code c spare : Nat) : FV :=
  if code = 2 ∧ c % 16 = 8 then Fmt.e4m3.decode spare else (opKind code).value c

/-- Tau of a B element (R160); a special element has one term. -/
def opTau (code c spare : Nat) : Nat :=
  let code' := if code = 2 ∧ c % 16 = 8 then 0 else code
  let c' := if code = 2 ∧ c % 16 = 8 then spare else c
  match opKind code' with
  | .int w _ => tau (sInt w c').natAbs
  | .flt f =>
    match f.decode c' with
    | .fin _ m _ => tau m
    | _ => 1
  | .scale => 0

/-! ### Operands -/

/-- Fields of a pitch word (R191). -/
def pitchRP (p : Word) : Nat := fld p.toNat 0 16
def pitchTP (p : Word) : Nat := fld p.toNat 16 16
def pitchROT (p : Word) : Nat := fld p.toNat 32 3

/-- Addr(i, b) of R193. -/
def tileAddr (base pitch : Word) (i b : Nat) : Nat :=
  (fld base.toNat 0 22 + i * pitchRP pitch + b) ^^^ ((i * pitchROT pitch % 32) * 64)

/-- Row `i` of a scratchpad operand, `n` bytes (R193). -/
def tileRow (c : Core) (base pitch : Word) (i n : Nat) : Nat :=
  ofBytes ((List.range n).map fun b => c.spm.read (c.physOff (tileAddr base pitch i b)))

/-- Element (row, col) of an m register of elements of width `w` (R192). -/
def mElem (m : BitVec 262144) (w row e : Nat) : Nat := (m >>> (2048 * row + w * e)).toNat % 2 ^ w

/-- Fields of an m-operand word (R192). -/
def mwDir (x : Word) : Nat := fld x.toNat 3 2
def mwReg (x : Word) : Fin 8 := Fin.ofNat 8 (fld x.toNat 0 3)
def mwB0 (x : Word) : Nat := fld x.toNat 8 7
def mwE0 (x : Word) : Nat := fld x.toNat 16 9

/-- Codes of A, 128 rows of 32 (R192, R193). -/
def fetchA (c : Core) (op : TOperand) (w : Nat) : List (List Nat) :=
  match op with
  | .m x =>
    let m := c.tile.m[mwReg x]
    (List.range 128).map fun r => (List.range 32).map fun k =>
      if mwDir x = 0 then mElem m w r (mwE0 x + k) else mElem m w (mwB0 x + k) (mwE0 x + r)
  | .sp base pitch =>
    (List.range 128).map fun r =>
      let row := tileRow c base pitch r (32 * w / 8)
      (List.range 32).map fun k => fld row (w * k) w

/-- Codes of B, 32 rows of 64 (R192, R193). -/
def fetchB (c : Core) (op : TOperand) (w : Nat) : List (List Nat) :=
  match op with
  | .m x =>
    let m := c.tile.m[mwReg x]
    (List.range 32).map fun k => (List.range 64).map fun j =>
      if mwDir x = 0 then mElem m w (mwB0 x + k) (mwE0 x + j) else mElem m w (mwB0 x + j) (mwE0 x + k)
  | .sp base pitch =>
    (List.range 32).map fun k =>
      let row := tileRow c base pitch k (64 * w / 8)
      (List.range 64).map fun j => fld row (w * j) w

/-- Element of a matrix held as rows. -/
def cell (rows : List (List Nat)) (i j : Nat) : Nat := (rows.getD i []).getD j 0

/-! ### Narrow products -/

/-- A lane's sum: finite, or a special (R203). -/
inductive PSum where
  | fin (p : Int)
  | nan
  | inf (neg : Bool)
  deriving DecidableEq, Repr

/-- A PS code (R203). -/
def PSum.ofCode (x : Word) : PSum :=
  if x = 0x8000000000000000 then .nan
  else if x = 0x8000000000000001 then .inf false
  else if x = 0x8000000000000002 then .inf true
  else .fin x.toInt

def PSum.code : PSum → Word
  | .nan => 0x8000000000000000
  | .inf false => 0x8000000000000001
  | .inf true => 0x8000000000000002
  | .fin p => BitVec.ofInt 64 p

/-- Meeting of specials; a finite side leaves a special unchanged (R203, R204). -/
def PSum.meet : PSum → PSum → PSum
  | .nan, _ | _, .nan => .nan
  | .inf a, .inf b => if a = b then .inf a else .nan
  | .inf a, .fin _ => .inf a
  | .fin _, .inf b => .inf b
  | .fin p, .fin q => .fin (p + q)

/-- TruncZ(a × b / 2^L), or the special of the product (R202, R203). -/
def termOf (l : Int) (a b : FV) : PSum :=
  match FV.mul a b with
  | none => .nan
  | some .nan => .nan
  | some (.inf s) => .inf s
  | some (.fin s m e) =>
    let x := e - l
    .fin (signed s (if 0 ≤ x then m * 2 ^ x.toNat else m / 2 ^ (-x).toNat))

/-- The block sum of one lane (R202). -/
def blockSum (l : Int) (as_ bs : List FV) : PSum :=
  (List.zipWith (termOf l) as_ bs).foldl PSum.meet (.fin 0)

/-- Accumulation into an old value with tags (R204): the new value and whether it was clamped. -/
def accumulate (tag l : Int) (old new : PSum) : PSum × Bool :=
  let t := if tag ≤ l then tag else l
  match old, new with
  | .fin p, .fin q =>
    let v := p * 2 ^ (tag - t).toNat + q * 2 ^ (l - t).toNat
    if v < -(2 ^ 63) + 3 then (.fin (-(2 ^ 63) + 3), true)
    else if 2 ^ 63 - 1 < v then (.fin (2 ^ 63 - 1), true)
    else (.fin v, false)
  | _, _ => (old.meet new, false)

/-- TAGn of GPST (R191). -/
def psTag (gpst : Word) (ps : Bool) : Int := sInt 8 (fld gpst.toNat (if ps then 8 else 0) 8)

/-- GPST with TAGn set, and OVn cleared (`some false`), set (`some true`) or kept (R191, R204). -/
def setPst (gpst : Word) (ps : Bool) (tag : Int) (ov : Option Bool) : Word :=
  let sh := if ps then 8 else 0
  let bit : Word := if ps then 0x20000 else 0x10000
  let g1 := (gpst &&& ~~~(0xFF#64 <<< sh)) ||| (BitVec.ofNat 64 (tag % 256).toNat <<< sh)
  match ov with
  | none => g1
  | some true => g1 ||| bit
  | some false => g1 &&& ~~~bit

/-- A row group: first row, rows, codes of its B. -/
structure RowGroup where
  first : Nat
  rows : Nat
  b : List (List Nat)
  deriving DecidableEq, Repr

/-- Values of A row `r` and of B column `j`, with the spares of the spare register (R194, R202). -/
def rowVals (code : Nat) (spare : Vec) (a : List (List Nat)) (r : Nat) : List FV :=
  (List.range 32).map fun k => opValue code (cell a r k) (lane 8 spare r)

def colVals (code : Nat) (spare : Vec) (b : List (List Nat)) (j : Nat) : List FV :=
  (List.range 32).map fun k => opValue code (cell b k j) (lane 8 spare (128 + j))

/-- The row group that covers a row. -/
def groupOf (gs : List RowGroup) (r : Nat) : Option RowGroup :=
  gs.find? fun g => decide (g.first ≤ r) && decide (r < g.first + g.rows)

/-- The new partial sums and tag of a narrow operation (R202-R204, R210). -/
def narrowResult (fmt : Word) (acc : Bool) (spare : Vec) (a : List (List Nat)) (gs : List RowGroup) (old : BitVec 524288)
    (tag : Int) : List Word × Int × Option Bool :=
  let l := lsbExp fmt
  let cols := gs.map fun g => (List.range 64).map fun j => colVals (bfmt fmt) spare g.b j
  let sums := (List.range 128).flatMap fun r =>
    let av := rowVals (afmt fmt) spare a r
    let gi := gs.findIdx? fun g => decide (g.first ≤ r) && decide (r < g.first + g.rows)
    (List.range 64).map fun j =>
      let new := match gi with
        | some i => blockSum l av ((cols.getD i []).getD j [])
        | none => .fin 0
      if acc then accumulate tag l (.ofCode (psGet old r j)) new else (new, false)
  (sums.map fun x => x.1.code, if acc then (if tag ≤ l then tag else l) else l,
    if acc then (if sums.any (·.2) then some true else none) else some false)

/-! ### Wide products and scaling -/

/-- One lane of a wide operation: 32 fused steps in FP32, RNE (R205). -/
def wideLane (c0 : Nat) (as_ bs : List FV) : Nat :=
  (List.zip as_ bs).foldl (fun c p => (Fmt.f32.fma .rne 0 p.1 p.2 (Fmt.f32.decode c)).1) c0

/-- The accumulator after a wide operation (R205, R210). -/
def wideResult (fmt : Word) (a : List (List Nat)) (gs : List RowGroup) (old : BitVec 262144) : List Nat :=
  let cols := gs.map fun g => (List.range 64).map fun j => colVals (bfmt fmt) 0 g.b j
  (List.range 128).flatMap fun r =>
    let av := rowVals (afmt fmt) 0 a r
    let gi := gs.findIdx? fun g => decide (g.first ≤ r) && decide (r < g.first + g.rows)
    (List.range 64).map fun j =>
      match gi with
      | some i => wideLane (mGet old r j) av ((cols.getD i []).getD j [])
      | none => mGet old r j

/-- One lane of MSCA (R206). -/
def scaleLane (scale : Option Vec) (tag : Int) (p : PSum) (c r j : Nat) : Nat :=
  let ea := match scale with | none => 0x7F | some v => lane 8 v r
  let eb := match scale with | none => 0x7F | some v => lane 8 v (128 + j)
  if ea = 0xFF ∨ eb = 0xFF then Fmt.f32.nan
  else
    match p with
    | .nan => Fmt.f32.nan
    | .inf s => (Fmt.f32.add .rne 0 (Fmt.f32.decode c) (.inf s)).1
    | .fin v =>
      (Fmt.f32.add .rne 0 (Fmt.f32.decode c)
        (.fin (decide (v < 0)) v.natAbs (tag + ea - 127 + eb - 127))).1

/-! ### Cost -/

/-- Per group: End of the last unit, cost of each step, and the units as (first step, steps, length). -/
def unitsOf (cost : List Nat) : List (Nat × Nat × Nat) :=
  (cost.zipIdx.foldl (fun (acc : List (Nat × Nat × Nat) × Bool) ck =>
    if 0 < ck.1 then ((ck.2, 1, ck.1) :: acc.1, false)
    else
      match acc.1 with
      | (f, n, l) :: rest =>
        if acc.2 && decide (n < 4) then ((f, n + 1, l) :: rest, true) else ((ck.2, 1, 1) :: acc.1, true)
      | [] => ([(ck.2, 1, 1)], true)) ([], false)).1.reverse

/-- Progress of the schedule of R207: start of each step by group, End and WSTALL by group. -/
structure Sched where
  start : List (Nat × Nat × Nat)
  ends : List Nat
  stall : List Nat
  deriving DecidableEq, Repr

/-- W(k) relative to T0 (R207). -/
def Sched.window (sc : Sched) (k : Nat) : Nat :=
  if k < 16 then 0
  else ((sc.start.filter fun x => x.2.1 == k - 16).map fun x => x.2.2).foldl Nat.max 0

/-- Runs the unit of group `g` that ends at step `k`, if there is one. -/
def Sched.unit (units : List (List (Nat × Nat × Nat))) (k : Nat) (sc : Sched) (g : Nat) : Sched :=
  match (units.getD g []).find? fun u => u.1 + u.2.1 == k + 1 with
  | none => sc
  | some (f, n, len) =>
    let e := sc.ends.getD g 0
    let st := Nat.max e (sc.window k)
    { start := (List.range n).map (fun i => (g, f + i, st)) ++ sc.start,
      ends := sc.ends.set g (st + len), stall := sc.stall.set g (sc.stall.getD g 0 + (st - e)) }

/-- The schedule of a product from the costs of the eight groups (R207). -/
def schedule (costs : List (List Nat)) : Sched :=
  let units := costs.map unitsOf
  (List.range 32).foldl (fun sc k => (List.range 8).foldl (Sched.unit units k) sc)
    ⟨[], List.replicate 8 0, List.replicate 8 0⟩

/-- Tau of each B element of a row group (R160). -/
def tausOf (fmt : Word) (spare : Vec) (b : List (List Nat)) : List (List Nat) :=
  (List.range 32).map fun k => (List.range 64).map fun j => opTau (bfmt fmt) (cell b k j) (lane 8 spare (128 + j))

/-- Cost of step k in group g over the row groups (R207); where no row group has rows, the maximum over none is 0 and every step is a
zero-cost step (entry 7, DESIGN CHOICE). -/
def costsOf (taus : List (List (List Nat))) : List (List Nat) :=
  (List.range 8).map fun g => (List.range 32).map fun k =>
    (taus.map fun t => ((List.range 8).map fun i => cell t k (8 * g + i)).foldl Nat.max 0).foldl Nat.max 0

/-- Ticks from T0 to F and the additions to the 32 counters in the order of R209 (R207, R208). -/
def productCost (fmt : Word) (spare : Vec) (gs : List RowGroup) : Nat × List Nat :=
  let live := gs.filter fun g => g.rows != 0
  let taus := live.map fun g => tausOf fmt spare g.b
  let costs := costsOf taus
  let sc := schedule costs
  let busy := costs.map fun c => ((unitsOf c).map fun u => u.2.2).sum
  let terms := (List.range 8).map fun g =>
    ((List.zip live taus).map fun p =>
      p.1.rows * ((List.range 32).map fun k => ((List.range 8).map fun i => cell p.2 k (8 * g + i)).sum).sum).sum
  let zstep := costs.map fun c => (c.filter fun x => x == 0).length
  (sc.ends.foldl Nat.max 0, busy ++ terms ++ zstep ++ sc.stall)

/-- Terms that the array applies on each tick from T0: a lane whose element costs n applies one term on each of the first n ticks of its
step's unit (R207, R208; entry 7, DESIGN CHOICE). -/
def termsByTick (fmt : Word) (spare : Vec) (gs : List RowGroup) : List Nat :=
  let live := gs.filter fun g => g.rows != 0
  let taus := live.map fun g => tausOf fmt spare g.b
  let sc := schedule (costsOf taus)
  (List.range (sc.ends.foldl Nat.max 0)).map fun i =>
    ((sc.start.filter fun x => decide (x.2.2 ≤ i)).map fun x =>
      ((List.zip live taus).map fun p =>
        p.1.rows * ((List.range 8).filter fun j => decide (i < x.2.2 + cell p.2 x.2.1 (8 * x.1 + j))).length).sum).sum

end Sys2Proof.Machine
end

