-- ==== Sys2Proof/Machine/Tile.lean ====
section
/-! DEFINITION. The tile instructions of slot S4 (R115, R188-R196, R210-R219). -/

namespace Sys2Proof.Machine

/-- A failed check: trap code and EINFO. -/
abbrev Failed := Option (Nat × Word)

/-- The first failing check of a list. -/
def firstFailed : List Failed → Failed
  | [] => none
  | some x :: _ => some x
  | none :: rest => firstFailed rest

/-- The limits of an m-operand word for A (R192). -/
def mWordA (w : Nat) (x : Word) : Failed :=
  let n := 2048 / w
  let ok := mwE0 x % 32 == 0 &&
    (if mwDir x = 0 then mwB0 x == 0 && decide (mwE0 x + 32 ≤ n)
     else mwDir x == 1 && decide (mwB0 x + 32 ≤ 128) && decide (mwE0 x + 128 ≤ n))
  if ok then none else some (9, x)

/-- The limits of an m-operand word for B (R192). -/
def mWordB (w : Nat) (x : Word) : Failed :=
  let n := 2048 / w
  let ok := mwE0 x % 32 == 0 &&
    (if mwDir x = 0 then decide (mwB0 x + 32 ≤ 128) && decide (mwE0 x + 64 ≤ n)
     else mwDir x == 1 && decide (mwB0 x + 64 ≤ 128) && decide (mwE0 x + 32 ≤ n))
  if ok then none else some (9, x)

/-- The range check of a scratchpad operand (R193). -/
def spRange (s : State) (base pitch : Word) (rows bytes : Nat) : Failed :=
  let role := fld base.toNat 24 8
  if (role == 0xFF || role == s.core.act.role) && fld base.toNat 22 2 == 0 &&
      decide (fld base.toNat 0 22 + (rows - 1) * pitchRP pitch + bytes - 1 ≤ 0x2FFFFF)
  then none else some (9, base)

/-- The alignment check of a scratchpad operand (R193). -/
def spAlign (base pitch : Word) : Failed :=
  if base.toNat % 4 ≠ 0 ∨ pitchRP pitch % 4 ≠ 0 then some (8, base) else none

/-- Hazard, checks, full queue, then the operation enters the queue and the monitor keeps its cycle (R115, R195,
R196). -/
def tileIssue (work : TileWork) (checks : List Failed) (s : State) : State :=
  let c := s.core.act
  let near := match c.hazard with
    | some c0 => if c.cyc - c0 < 4 then some (0xB, BitVec.ofNat 64 (c.cyc - c0)) else none
    | none => none
  match firstFailed (near :: checks) with
  | some (code, x) => trapAt 4 code x s
  | none =>
    if 2 ≤ (s.core.tile.ops.filter fun o => o.start.isNone).length then stall s
    else
      let op : TileOp := { work := work, eff := none, seq := s.newId, addr := c.pos, entered := s.time, start := none,
                           finish := 0, stopped := false }
      commit 4 (s.drawn.modCore fun k =>
        { k with tile := { k.tile with ops := k.tile.ops ++ [op] }, act := { k.act with hazard := some c.cyc } })

/-- Register PRn of pair `q` in GMAP (R191). -/
def mapPair (gmap : Word) (q : Nat) : Nat := fld gmap.toNat (8 * q) 5

/-- The v register `n` at issue (R194). -/
def State.vreg (s : State) (n : Nat) : Vec := s.core.act.view.v[Fin.ofNat 32 n]

/-- An engine register. -/
def State.greg (s : State) (n : Fin 16) : Word := s.core.tile.greg[n]

/-- Bits that MCFG may write in an engine register (R191). -/
def gregMask (n : Nat) : Word :=
  if n = 0 then 0x77 else if n = 1 ∨ n = 2 then 0x7FFFFFFFF else if n = 3 then 0x1F1F1F1F else if n = 4 then 7
  else if 8 ≤ n then 0xFFFF00FF else 0

/-- MCFG (R212). -/
def execMcfg (r : McfgF) (s : State) : Res :=
  slotOp 4 r.g (fun s =>
    commit 4 (s.modCore fun c =>
      let g1 := c.tile.greg.set r.reg (s.src r.a &&& gregMask r.reg.val)
      let g2 := if r.pair then
          g1.set (Fin.ofNat 16 (r.reg.val + 1)) (s.src r.b &&& gregMask (r.reg.val + 1))
        else g1
      { c with tile := { c.tile with greg := g2 } })) s

/-- Rows and bytes of MLD and MST of an m register (R213). -/
def tilShape (m : MOp) : Nat × Nat := if m.dir = .row then (128, 256) else (64, 512)

/-- MLD (R213). -/
def execMld (r : TilM) (s : State) : Res :=
  slotOp 4 r.g (fun s =>
    let b := s.src r.a
    let p := s.src r.b
    tileIssue (.mld r.m b p) [spRange s b p (tilShape r.m).1 (tilShape r.m).2, spAlign b p] s) s

/-- MST of an m register (R213). -/
def execMst (r : TilM) (s : State) : Res :=
  slotOp 4 r.g (fun s =>
    let b := s.src r.a
    let p := s.src r.b
    tileIssue (.mst r.m b p) [spRange s b p (tilShape r.m).1 (tilShape r.m).2, spAlign b p] s) s

/-- MST of a PS (R213). -/
def execMstPs (r : TilP) (s : State) : Res :=
  slotOp 4 r.g (fun s =>
    let b := s.src r.a
    let p := s.src r.b
    tileIssue (.mstPs r.ps b p) [spRange s b p 128 512, spAlign b p] s) s

/-- MZ of an m register (R214). -/
def execMz (r : MzM) (s : State) : Res := slotOp 4 r.g (tileIssue (.mz r.m) []) s

/-- MZ of a PS (R214). -/
def execMzPs (r : MzP) (s : State) : Res := slotOp 4 r.g (tileIssue (.mzPs r.ps) []) s

/-- The pair check of R189. -/
def pairCheck (g : Word) : Failed := if narrowPair g || widePair g then none else some (9, g)

/-- Whether an operation on this pair reads the spare register (R194). -/
def usesSpare (g : Word) : Bool := afmt g == 2 || bfmt g == 2

/-- The spare pair check of R194. -/
def spareCheck (s : State) (q : Nat) : Failed :=
  if usesSpare (s.greg 0) && mapPair (s.greg 3) q % 2 == 1 then some (9, s.greg 3) else none

/-- The spare register as read at issue (R194). -/
def spareOf (s : State) (q : Nat) : Vec :=
  if usesSpare (s.greg 0) then s.vreg (mapPair (s.greg 3) q + 1) else 0

/-- An A operand and its checks (R192, R193). -/
def operandA (s : State) (sp : Bool) (x : Word) : TOperand × Failed × Failed :=
  let w := opWidth (afmt (s.greg 0))
  if sp then (.sp x (s.greg 1), spRange s x (s.greg 1) 128 (32 * w / 8), spAlign x (s.greg 1))
  else (.m x, mWordA w x, none)

/-- A B operand and its checks (R192, R193). -/
def operandB (s : State) (sp : Bool) (x : Word) : TOperand × Failed × Failed :=
  let w := opWidth (bfmt (s.greg 0))
  if sp then (.sp x (s.greg 2), spRange s x (s.greg 2) 32 (64 * w / 8), spAlign x (s.greg 2))
  else (.m x, mWordB w x, none)

/-- GWACC.ACC (R191). -/
def State.wacc (s : State) : Fin 8 := Fin.ofNat 8 (fld (s.greg 4).toNat 0 3)

/-- MTA (R215). The range checks stand in the order of pair, A, B and spare register (entry 7, DESIGN CHOICE). -/
def execMta (r : MtaF) (s : State) : Res :=
  slotOp 4 r.g (fun s =>
    let a := operandA s r.asp (s.src r.a)
    let b := operandB s r.bsp (s.src r.b)
    tileIssue (.mta a.1 b.1 (s.greg 0) r.acc r.ps s.wacc (spareOf s r.qsel.val))
      [pairCheck (s.greg 0), a.2.1, b.2.1, spareCheck s r.qsel.val, a.2.2, b.2.2] s) s

/-- ROWS and TILE of a row-group word (R191). -/
def grpRows (g : Word) : Nat := fld g.toNat 0 8
def grpTile (g : Word) : Nat := fld g.toNat 16 16

/-- Base of the B tile of a row group (R210). -/
def tileBase (base pitch g : Word) : Word := base + BitVec.ofNat 64 (64 * pitchTP pitch * grpTile g)

/-- MTG (R210, R216). An alignment failure of B names SRCB's base, whatever the row groups hold (entry 7, DESIGN CHOICE). -/
def execMtg (r : MtgF) (s : State) : Res :=
  slotOp 4 r.g (fun s =>
    let a := operandA s r.asp (s.src r.a)
    let base := s.src r.b
    let pitch := s.greg 2
    let w := opWidth (bfmt (s.greg 0))
    let groups := (List.range 8).map fun i => s.greg (Fin.ofNat 16 (8 + i))
    let live := groups.filter fun g => grpRows g != 0
    let sum := (groups.map grpRows).sum
    tileIssue (.mtg a.1 base pitch groups (s.greg 0) r.ps s.wacc (spareOf s r.qsel.val))
      ([pairCheck (s.greg 0), a.2.1] ++ live.map (fun g => spRange s (tileBase base pitch g) pitch 32 (64 * w / 8)) ++
        [spareCheck s r.qsel.val, a.2.2, spAlign base pitch,
         if 128 < sum then some (0xC, BitVec.ofNat 64 sum) else none]) s) s

/-- MSCA (R206, R217). -/
def execMsca (r : MscaF) (s : State) : Res :=
  slotOp 4 r.g (fun s =>
    let pr := mapPair (s.greg 3) r.ssel.val
    let odd : Failed := if !r.nosc && pr % 2 == 1 then some (9, s.greg 3) else none
    tileIssue (.msca r.ps r.c (if r.nosc then none else some (s.vreg pr))) [odd] s) s

/-- The complete operations that an MWT covers: all but the `n` issued last (R198, R218). -/
def Tile.cover (n : Nat) (t : Tile) : Tile :=
  let newer (p : TilePast) : Nat := (t.ops.filter fun o => decide (p.seq < o.seq)).length + (t.past.filter fun q => decide (p.seq < q.seq)).length
  { t with past := t.past.filter fun p => decide (newer p < n) }

/-- MWT (R218): it waits until at most `n` operations are incomplete. -/
def execMwt (r : MwtF) (s : State) : Res :=
  slotOp 4 r.g (fun s =>
    if s.core.tile.ops.length ≤ r.n.val then commit 4 (s.modCore fun c => { c with tile := c.tile.cover r.n.val }) else stall s) s

/-- A term counter without what operations that complete on this tick have added (R219). -/
def Tile.cntBefore (t : Tile) (i : Fin 32) : Word :=
  t.cnt[i] - BitVec.ofNat 64 (((t.ops.filter fun o => o.done).map fun o => match o.eff with
    | some e => e.cnt.getD i.val 0
    | none => 0).sum)

/-- The value MCNT lands (R219): GPST, one counter, or the sum of a kind. -/
def mcntValue (t : Tile) (a : Word) : Word :=
  if a.getLsbD 6 then t.greg[5]
  else
    let kind := fld a.toNat 4 2
    let at_ (g : Nat) : Word := t.cntBefore (Fin.ofNat 32 (8 * kind + g))
    if a.getLsbD 3 then ((List.range 8).map at_).foldl (· + ·) 0 else at_ (fld a.toNat 0 3)

/-- MCNT (R219). -/
def execMcnt (r : RegU) (s : State) : Res :=
  slotOp 4 r.g (fun s => landS 4 2 r.wb r.d (mcntValue s.core.tile (s.src r.a)) s) s

end Sys2Proof.Machine
end

