-- ==== Sys2Proof/Machine/VectorConv.lean ====
section
/-! DEFINITION. Conversion and block quantisation (R148-R158, R175-R179). -/

namespace Sys2Proof.Machine

/-- VCVT (R175): the part of the narrower side, merged by destination lane. -/
def execVcvt (r : VcvF) (s : State) : Res :=
  vecOp (fun s =>
    let wF := r.frm.width
    let wT := r.tgt.width
    let n := 2048 / Nat.max wF wT
    let src := s.core.act.view.v[r.vs]
    let old := s.core.act.view.v[r.vd]
    let mask := s.maskOf r.g
    let from0 := if wF < wT then r.part.val * n else 0
    let to0 := if wT < wF then r.part.val * n else 0
    let kf := cvtKind r.frm
    let kt := cvtKind r.tgt
    let ds := drawFor (if alwaysExact kf kt then .rne else r.rm) n s
    let res := ds.1.mapIdx fun j dr => convert kf kt r.rm dr (lane wF src (from0 + j))
    let on (e : Nat) : Bool := decide (to0 ≤ e) && decide (e < to0 + n) && mask.getLsbD (wT * e / 32)
    let x := BitVec.ofNat 2048 (ofLanes wT ((List.range (2048 / wT)).map fun e =>
      if on e then (res.getD (e - to0) (0, 0)).1 else lane wT old e))
    let fl := (res.mapIdx fun j q => if on (to0 + j) then q.2 else 0).foldl (· ||| ·) 0
    land 3 4 (some x) [.v r.vd x] fl ds.2) s

/-- Format and largest exponent of a block format (R135, R178). -/
def blkFmt : BlkT → Fmt
  | .e4m3 => .e4m3
  | .e5m2 => .e5m2
  | .e2m1 => .e2m1

def blkEmax : BlkT → Int
  | .e4m3 => 8
  | .e5m2 => 15
  | .e2m1 => 2

/-- The placement P and whether it is outside its limits (R177). -/
def placement (s : State) (d : VOp) : Nat := lane 8 (s.core.oldV d) 0
def placementBad (p : Nat) : Bool := p % 2 == 1 || decide (190 < p)

/-- Comparison of the magnitudes of finite values. -/
def magCmp (a b : Nat × Int) : Ordering :=
  let d := (addExact ((a.1 : Int), a.2) (-(b.1 : Int), b.2)).1
  if d < 0 then .lt else if d = 0 then .eq else .gt

/-- Mantissa and exponent of the magnitude of a value. -/
def magOf : FV → Nat × Int
  | .fin _ m e => (m, e)
  | _ => (0, 0)

/-- A value divided by 2^k. -/
def FV.scaleDown (k : Int) : FV → FV
  | .fin s m e => .fin s m (e - k)
  | v => v

/-- Distance of two finite values, as mantissa and exponent. -/
def distOf (x y : FV) : Nat × Int :=
  match x, y with
  | .fin a m e, .fin b n f => let d := addExact (signed a m, e) (-(signed b n), f); (d.1.natAbs, d.2)
  | _, _ => (0, 0)

/-- Element of largest magnitude, the lowest lane on a tie (R178). -/
def peakOf : List FV → FV
  | [] => .fin false 0 0
  | x :: xs => xs.foldl (fun p v => if magCmp (magOf p) (magOf v) == .lt then v else p) x

/-- One quantised block: codes, scale byte, spare byte, flags (R178). -/
def quantBlock (t : BlkT) (xs : List FV) : List Nat × Nat × Nat × Word :=
  let f := blkFmt t
  let special := xs.any fun x => match x with | .fin _ _ _ => false | _ => true
  let peak := peakOf xs
  if special then (xs.map fun _ => 0, 0xFF, 0, flagFV)
  else if (magOf peak).1 = 0 then (xs.map fun _ => 0, 0x7F, 0, 0)
  else
    let lg : Int := bitLen (magOf peak).1 - 1 + (magOf peak).2
    let sc0 : Int := lg - blkEmax t + 127
    let sc : Int := if sc0 < 0 then 0 else if 254 < sc0 then 254 else sc0
    let k := sc - 127
    let e2 := t == .e2m1
    let yp := peak.scaleDown k
    let q := if e2 then (Fmt.e4m3.ofFV .rne 0 yp).1 else 0
    let dq := Fmt.e4m3.decode q
    let one (x : FV) : Nat × Word :=
      let y := x.scaleDown k
      let r := f.ofFV .rne 0 y
      let sat := r.2 &&& flagFO != 0
      let c := if sat then f.maxFin x.sign else r.1
      if e2 && magCmp (distOf y dq) (distOf y (f.decode c)) == .lt then
        (8, if (distOf y dq).1 = 0 then 0 else flagFI)
      else (c, (if (distOf y (f.decode c)).1 = 0 then 0 else flagFI) ||| (if sat then flagFO else 0))
    let rs := xs.map one
    (rs.map (·.1), sc.toNat, q,
      (rs.map (·.2)).foldl (· ||| ·) (if e2 && (distOf yp dq).1 != 0 then flagFI else 0))

/-- A map register with bytes P and P + 1 replaced and bytes 192-255 zero (R158, R178). -/
def mapWrite (old : Vec) (p b0 b1 : Nat) : Vec :=
  BitVec.ofNat 2048 (ofLanes 8 ((List.range 256).map fun i =>
    if 192 ≤ i then 0 else if i = p then b0 else if i = p + 1 then b1 else lane 8 old i))

/-- Width of a code in the layout of VQNT (R178). -/
def blkWidth : BlkT → Nat
  | .e2m1 => 4
  | _ => 8

/-- The spare map register of an E2M1 map (R177). -/
def spareReg (b : Fin 32) : Fin 32 := ⟨(b.val + 1) % 32, by omega⟩

/-- VQNT (R177, R178). The placement word is judged before the f operands (entry 88, DESIGN CHOICE). -/
def execVqnt (r : VecQ) (s : State) : Res :=
  vecOp (fun s =>
    let p := placement s r.d
    if placementBad p then trapAt 3 9 (BitVec.ofNat 64 (lane 32 (s.core.oldV r.d) 0)) s
    else
      withV [r.a] r.d (fun vs s =>
        let xs := (List.range 64).map fun i => Fmt.f32.decode (lane 32 (vs.getD 0 0) i)
        let b0 := quantBlock r.fmt (xs.take 32)
        let b1 := quantBlock r.fmt (xs.drop 32)
        let codes := BitVec.ofNat 2048 (ofLanes (blkWidth r.fmt) (b0.1 ++ b1.1))
        let v := s.core.act.view.v
        let maps := [RegWrite.v r.b (mapWrite v[r.b] p b0.2.1 b1.2.1)] ++
          (if r.fmt = .e2m1 then [RegWrite.v (spareReg r.b) (mapWrite v[spareReg r.b] p b0.2.2.1 b1.2.2.1)] else [])
        landV 8 (feedOf r.a) r.d codes maps (b0.2.2.2 ||| b1.2.2.2) s) s) s

/-- The value of a block element (R156). -/
def element (f : Fmt) (c sc q : Nat) : FV :=
  if sc = 0xFF then .nan
  else if f.sp = .e2m1 ∧ c % 16 = 8 then (Fmt.e4m3.decode q).scaleDown (127 - sc : Int)
  else (f.decode c).scaleDown (127 - sc : Int)

/-- VSCL (R177, R179). The placement word is judged before the f operands (entry 88, DESIGN CHOICE). -/
def execVscl (r : VecQ) (s : State) : Res :=
  vecOp (fun s =>
    let p := placement s r.d
    if placementBad p then trapAt 3 9 (BitVec.ofNat 64 (lane 32 (s.core.oldV r.d) 0)) s
    else
      withV [r.a] r.d (fun vs s =>
        let v := s.core.act.view.v
        let res := (List.range 64).map fun i =>
          let sc := lane 8 v[r.b] (p + i / 32)
          let q := lane 8 v[spareReg r.b] (p + i / 32)
          Fmt.f32.ofFV .rne 0 (element (blkFmt r.fmt) (lane (blkWidth r.fmt) (vs.getD 0 0) i) sc q)
        landV 4 (feedOf r.a) r.d (BitVec.ofNat 2048 (ofLanes 32 (res.map (·.1)))) []
          ((res.map (·.2)).foldl (· ||| ·) 0) s) s) s

end Sys2Proof.Machine
end

