-- ==== Sys2Proof/Machine/Snapshot.lean ====
section
/-! DEFINITION. What a deep frame holds of a stopped bundle, 28,672 bytes: latches, stop state, operand snapshot, results in flight and
replay entries; the same for the code that a local handler interrupted (R87, R90-R93). The layout inside a snapshot and inside the last 16
bytes of an in-flight entry is the model's (entry 14). -/

namespace Sys2Proof.Machine

def zeroBytes (n : Nat) : List Byte := List.replicate n 0

/-- Bytes cut or filled up with zeros to a length. -/
def sized (n : Nat) (bs : List Byte) : List Byte := (bs ++ zeroBytes (n - bs.length)).take n

def wordsBytes (ws : List Nat) : List Byte := ws.flatMap (toBytes 8)

/-- Number of words, lowest first. -/
def wordsNum (ws : List Nat) : Nat := ofLanes 64 ws

/-- Words of a frame: byte offset and number. -/
abbrev FrameRead := Nat → Nat → List Nat

/-- The 256 bytes at an offset of a frame. -/
def vecAt (f : FrameRead) (off : Nat) : Vec := BitVec.ofNat 2048 (wordsNum (f off 32))

/-! ### The sources of a slot -/

/-- A source of a slot; `low` is the low word of a vector register, of which VQNT and VSCL read no more. -/
inductive Opnd where
  | src (x : Src)
  | pred (i : Fin 8)
  | mask (i : Fin 8)
  | low (v : VOp)
  | vec (v : VOp)
  deriving DecidableEq, Repr

def Opnd.reg (i : Fin 64) : Opnd := .src (.s i)

/-- A destination whose old value the instruction reads (R165). -/
def oldOpnd (d : VOp) : List Opnd := match d with | .v _ => [.vec d] | _ => []

/-- Guard of a slot instruction. -/
def guardField : Instr → Option Guard
  | .nop _ g | .lexit g | .endk g | .eret g => some g
  | .add _ r | .sub _ r | .and _ r | .or _ r | .xor _ r | .andn _ r | .shl _ r | .shr _ r | .sar _ r | .rot _ r
  | .min _ r | .max _ r | .minu _ r | .maxu _ r | .bfx _ r | .bfi _ r
  | .mul r | .mulh r | .div r | .divu r | .rem r | .remu r | .mada r | .tenq r | .cxch r | .land r => some r.g
  | .addi _ r => some r.g
  | .cmp _ r => some r.g
  | .sel _ r => some r.g
  | .clz _ r | .popc _ r | .tagl r | .mcnt r | .role r | .cld r | .pub r | .nstat r | .cnt r => some r.g
  | .movi _ r | .movh _ r => some r.g
  | .pand _ r | .por _ r | .pxor _ r => some r.g
  | .pnot _ r => some r.g
  | .srd r | .swr r => some r.g
  | .lds r | .ld r => some r.g
  | .sts r | .st r => some r.g
  | .ldv r => some r.g
  | .stv r => some r.g
  | .lda r | .stl r => some r.g
  | .atom r => some r.g
  | .cas r => some r.g
  | .phase r | .fence r => some r.g
  | .tagi r | .copy r | .copyg r | .copys r | .copyr r | .tsig r | .cst r => some r.g
  | .tagx r | .rgwb r | .decl r | .recl r => some r.g
  | .vadd r | .vsub r | .vmul r | .vfma r | .vmax r | .vmin r | .vperm r | .vmaxu r | .vminu r | .vshl r | .vshr r | .vsar r => some r.g
  | .vabs r | .vneg r | .vexp2 r | .vrcp r | .vrsq r | .vidx r => some r.g
  | .vcmp r | .vcmpu r => some r.g
  | .vsel r => some r.g
  | .vand r | .vor r | .vxor r => some r.g
  | .vcvt r => some r.g
  | .vqnt r | .vscl r => some r.g
  | .vred r => some r.g
  | .vbc r => some r.g
  | .vmrd r | .vmwr r => some r.g
  | .mcfg r => some r.g
  | .mld r | .mst r => some r.g
  | .mstPs r => some r.g
  | .mz r => some r.g
  | .mzPs r => some r.g
  | .mta r => some r.g
  | .mtg r => some r.g
  | .msca r => some r.g
  | .mwt r => some r.g
  | .fbind r => some r.g
  | .fdrop r => some r.g
  | .hset r => some r.g
  | .hwait r => some r.g
  | .hrel r => some r.g
  | .qfence r => some r.g
  | .bar r | .bara r | .xph r => some r.g
  | .barw r => some r.g
  | .pause r | .trap r => some r.g
  | .xsnd r | .xsel r => some r.g
  | .br r | .call r => some r.g
  | .brp r | .ret r => some r.g
  | .loop r => some r.g
  | .lix r => some r.g
  | _ => none

/-- The sources that a slot instruction reads at its issue; the engine's geometry names those of MTA, MTG and MSCA (R194, R206). -/
def Core.reads (c : Core) : Instr → List Opnd
  | .add _ r | .sub _ r | .and _ r | .or _ r | .xor _ r | .andn _ r | .shl _ r | .shr _ r | .sar _ r | .rot _ r
  | .min _ r | .max _ r | .minu _ r | .maxu _ r | .bfx _ r
  | .mul r | .mulh r | .div r | .divu r | .rem r | .remu r | .tenq r | .cxch r | .land r => [.src r.a, .src r.b]
  | .bfi _ r | .mada r => [.src r.a, .src r.b, .reg r.d]
  | .addi _ r => [.src r.a]
  | .cmp _ r => [.src r.a, .src r.b]
  | .sel _ r => [.pred r.ps, .reg r.a, .reg r.b]
  | .clz _ r | .popc _ r | .tagl r | .mcnt r | .role r | .cld r | .pub r | .nstat r | .cnt r => [.src r.a]
  | .movh _ r => [.reg r.d]
  | .pand _ r | .por _ r | .pxor _ r => [.pred r.pa, .pred r.pb]
  | .pnot _ r => [.pred r.pa]
  | .swr r => [.reg r.reg]
  | .lds r | .ld r => [.reg r.base]
  | .sts r | .st r => [.reg r.base, .reg r.reg]
  | .ldv r => [.reg r.base]
  | .stv r => [.reg r.base, .vec (.v r.reg)]
  | .lda r => [.reg r.base]
  | .stl r => [.reg r.base, .reg r.reg]
  | .atom r => [.reg r.base, .reg r.reg]
  | .cas r => [.reg r.base, .reg r.reg, .reg r.new]
  | .tagi r | .copy r | .copyg r | .copys r | .copyr r | .tsig r | .cst r => [.src r.a, .src r.b]
  | .tagx r | .rgwb r | .decl r | .recl r => [.src r.a]
  | .vadd r | .vsub r | .vmul r | .vfma r | .vmax r | .vmin r | .vperm r | .vmaxu r | .vminu r | .vshl r | .vshr r | .vsar r =>
    [.vec r.a, .vec r.b] ++ oldOpnd r.d
  | .vabs r | .vneg r | .vexp2 r | .vrcp r | .vrsq r | .vidx r => .vec r.a :: oldOpnd r.d
  | .vcmp r | .vcmpu r => [.mask r.kd, .vec r.a, .vec r.b]
  | .vsel r => [.mask r.m, .vec r.a, .vec r.b] ++ oldOpnd r.d
  | .vand r | .vor r | .vxor r => [.vec r.a, .vec r.b] ++ oldOpnd r.d
  | .vcvt r => [.vec (.v r.vs), .vec (.v r.vd)]
  | .vqnt r | .vscl r => [.low r.d, .vec r.a, .vec (.v r.b), .vec (.v (spareReg r.b))]
  | .vred r => .vec r.a :: oldOpnd r.d
  | .vbc r => .src r.src :: oldOpnd r.d
  | .vmrd r => .reg r.idx :: oldOpnd r.v
  | .vmwr r => [.reg r.idx, .vec r.v]
  | .mcfg r => [.src r.a, .src r.b]
  | .mld r | .mst r => [.src r.a, .src r.b]
  | .mstPs r => [.src r.a, .src r.b]
  | .mta r => [.src r.a, .src r.b, spare r.qsel.val]
  | .mtg r => [.src r.a, .src r.b, spare r.qsel.val]
  | .msca r => [.vec (.v (Fin.ofNat 32 (mapPair c.tile.greg[3] r.ssel.val)))]
  | .fbind r => [.src r.a, .src r.b]
  | .hset r => [.src r.n]
  | .xsnd r => [.vec r.v]
  | .brp r | .ret r => [.src r.src]
  | .loop r => [.src r.cnt]
  | _ => []
where
  spare (q : Nat) : Opnd := .vec (.v (Fin.ofNat 32 (mapPair c.tile.greg[3] q + 1)))

/-- The value of a scalar source. -/
def Opnd.scalar? (r : RegFile) : Opnd → Option Nat
  | .src x => some (readSrc r x).toNat
  | .pred i => some (b2n (r.rp i))
  | .mask i => some (r.rk i).toNat
  | .low (.v i) => some (lane 64 r.v[i] 0)
  | .low _ => some 0
  | .vec _ => none

/-- The value of a vector source; a feed register gives the window that the slot has taken. -/
def Opnd.vector? (r : RegFile) (wins : List (Nat × Win)) : Opnd → Option Vec
  | .vec (.v i) => some r.v[i]
  | .vec (.l i) => some r.lat[i]
  | .vec (.f i) => some (((wins.find? fun w => w.1 == i.val).map fun w => w.2.1).getD 0)
  | .vec .none => some 0
  | _ => none

/-- The low 64 bits of a vector replaced. -/
def lowWord (x : Vec) (w : Nat) : Vec := ((x >>> 64) <<< 64) ||| BitVec.ofNat 2048 (w % 2 ^ 64)

/-- A register file whose source reads as given. -/
def RegFile.withScalar (r : RegFile) (w : Nat) : Opnd → RegFile
  | .src (.s i) => r.ws i (BitVec.ofNat 64 w)
  | .src (.l i) => { r with lat := r.lat.set i (lowWord r.lat[i] w) }
  | .pred i => r.wp i (bitOf w 0)
  | .mask i => r.wk i (BitVec.ofNat 64 w)
  | .low (.v i) => r.wv i (lowWord r.v[i] w)
  | _ => r

def RegFile.withVector (r : RegFile) (x : Vec) : Opnd → RegFile
  | .vec (.v i) => r.wv i x
  | .vec (.l i) => { r with lat := r.lat.set i x }
  | _ => r

/-! ### The operand snapshot -/

/-- Guard value of a slot: a bit, or the mask of S3 (R37, R38). -/
def guardWord (r : RegFile) (i : Instr) : Nat :=
  match guardField i with
  | none => 0
  | some g =>
    if i.slot? = some 3 then (if g.neg then ~~~(r.rk g.idx) else r.rk g.idx).toNat else b2n (r.rp g.idx ^^ g.neg)

/-- The 1,024 bytes of a slot's snapshot: a word that says that it is there, the guard, the scalar sources, and from byte 256 on the vector
sources, as the instruction names them. -/
def Core.slotSnap (c : Core) (r : RegFile) (wins : List (Nat × Win)) (i : Instr) : List Byte :=
  sized 256 (wordsBytes ([1, guardWord r i] ++ (c.reads i).filterMap (Opnd.scalar? r))) ++
    sized 768 (((c.reads i).filterMap (Opnd.vector? r wins)).flatMap fun x => toBytes 256 x.toNat)

/-- The snapshots of the seven slots. -/
def Core.snapBytes (c : Core) (r : RegFile) (wins : List (Nat × Win)) (slots : List Instr) : List Byte :=
  (List.range 7).flatMap fun n =>
    match slots.find? fun i => i.slot?.map Fin.val == some n with
    | some i => c.slotSnap r wins i
    | none => zeroBytes 1024

/-- The guard that a snapshot gives: S3's mask, a true guard, or none where the slot does nothing. -/
def guarded (w : Nat) (i : Instr) (r : RegFile) : Option RegFile :=
  match guardField i with
  | none => some r
  | some g =>
    if i.slot? = some 3 then some (r.wk g.idx (if g.neg then ~~~(BitVec.ofNat 64 w) else BitVec.ofNat 64 w))
    else if bitOf w 0 then some (r.wp g.idx (!g.neg)) else none

/-- The registers and windows with the sources of one snapshot; the counts are the scalar and vector sources before. -/
def putSources (f : FrameRead) (at_ : Nat) : List Opnd → Nat → Nat → RegFile × List (Nat × Win) → RegFile × List (Nat × Win)
  | [], _, _, x => x
  | o :: os, n, m, x =>
    match o with
    | .vec v =>
      let y := vecAt f (at_ + 256 + 256 * m)
      let wins := match v with
        | .f i => (i.val, (y, ((x.2.find? fun w => w.1 == i.val).bind fun w => w.2.2))) :: x.2.filter fun w => w.1 != i.val
        | _ => x.2
      putSources f at_ os n (m + 1) (x.1.withVector y o, wins)
    | o => putSources f at_ os (n + 1) m (x.1.withScalar ((f (at_ + 16 + 8 * n) 1).getD 0 0) o, x.2)

/-- An uncommitted slot as its snapshot at `at_` gives it: the instruction, a NOP where its guard is false, and what it reads. -/
def Core.readSnap (c : Core) (f : FrameRead) (at_ : Nat) (r : RegFile) (wins : List (Nat × Win)) (i : Instr) : Instr × Option SlotSnap :=
  let sl := i.slot?.getD 0
  if bitOf ((f at_ 1).getD 0 0) 0 = false then (i, none)
  else
    let x := putSources f at_ (c.reads i) 0 0 (r, wins)
    match guarded ((f (at_ + 8) 1).getD 0 0) i x.1 with
    | none => (.nop sl ⟨false, 0⟩, none)
    | some y => (i, some ⟨sl.val, y, x.2⟩)

/-! ### Results in flight and replay entries -/

/-- Class and register of a result's destination, and its data. -/
def RegWrite.dest : RegWrite → Nat × Nat × Vec
  | .s i x => (1, i.val, latchOf x)
  | .p i x => (2, i.val, BitVec.ofNat 2048 (b2n x))
  | .k i x => (3, i.val, latchOf x)
  | .v i x => (4, i.val, x)
  | .feed i _ x => (5, i.val, x)
  | .m o _ _ x => (6, o.m.val, x)

/-- A write with other data. -/
def RegWrite.withData (x : Vec) : RegWrite → RegWrite
  | .s i _ => .s i (x.setWidth 64)
  | .p i _ => .p i (x.getLsbD 0)
  | .k i _ => .k i (x.setWidth 64)
  | .v i _ => .v i x
  | .feed i n _ => .feed i n x
  | .m o a b _ => .m o a b x

/-- A write to the destination that an entry names. -/
def destWrite (cls n : Nat) (x : Vec) : List RegWrite :=
  match cls with
  | 1 => [.s (Fin.ofNat 64 n) (x.setWidth 64)]
  | 2 => [.p (Fin.ofNat 8 n) (x.getLsbD 0)]
  | 3 => [.k (Fin.ofNat 8 n) (x.setWidth 64)]
  | 4 => [.v (Fin.ofNat 32 n) x]
  | _ => []

/-- Destination of a result: that of its first write, class 0 where it writes latches only. -/
def Flight.dest (f : Flight) : Nat × Nat := ((f.writes.head?.map fun w => (w.dest.1, w.dest.2.1))).getD (0, 0)

/-- A result in flight, counted from cycle `base`: its data, then bit 63 with the slot, the destination, the latency and the flags, then the
virtual cycles that remain. -/
def Flight.bytes (base : Nat) (f : Flight) : List Byte :=
  let data : Vec := f.latch.getD ((f.writes.head?.map fun w => w.dest.2.2).getD 0)
  toBytes 256 data.toNat ++
    wordsBytes [2 ^ 63 + f.flags.toNat % 2 ^ 16 * 2 ^ 32 + (f.due - f.cyc) % 2 ^ 16 * 2 ^ 16 + f.dest.2 * 2 ^ 8 + f.dest.1 * 2 ^ 4 + f.slot,
      f.due - base]

/-- A replay entry: bits 63 and 62, and what is performed again. -/
def replayBytes (n : Nat) : List Byte := zeroBytes 256 ++ wordsBytes [2 ^ 63 + 2 ^ 62 + n % 4, 0]

/-- The 64 entries: results, then replay entries. -/
def entryBytes (base : Nat) (fs : List Flight) (replay : List Nat) : List Byte :=
  sized 17408 (fs.flatMap (Flight.bytes base) ++ replay.flatMap replayBytes)

/-- The result of an entry; `was` is the result that stood there at the save. -/
def Flight.read (f : FrameRead) (at_ base : Nat) (was : Option Flight) : Option Flight :=
  let w := (f (at_ + 256) 1).getD 0 0
  let due := base + (f (at_ + 264) 1).getD 0 0
  let data := vecAt f at_
  let cls := fld w 4 4
  let n := fld w 8 8
  if bitOf w 63 = false ∨ bitOf w 62 = true then none
  else match was with
    | none => some { due := due, cyc := due - fld w 16 16, slot := fld w 0 3, latch := some data, writes := destWrite cls n data,
                     flags := BitVec.ofNat 64 (fld w 32 16), need := none, refresh := none }
    | some y =>
      let same := y.dest == (cls, n)
      let k1 := { y with due := due, cyc := due - fld w 16 16, slot := fld w 0 3, flags := BitVec.ofNat 64 (fld w 32 16) }
      if y.need.isSome then
        some (if same then k1 else { k1 with writes := destWrite cls n data ++ y.writes.drop 1 })
      else
        some { k1 with latch := y.latch.map fun _ => data,
                       writes := (if same then y.writes.take 1 |>.map (RegWrite.withData data) else destWrite cls n data) ++ y.writes.drop 1 }

/-- The results of the entries at `at_`. -/
def flightsRead (f : FrameRead) (at_ base : Nat) (kept : List Flight) : List Flight :=
  ((List.range 64).filterMap fun i => Flight.read f (at_ + 272 * i) base kept[i]?) ++ kept.drop 64

/-- The replay entries that the frame still holds; `n` results stood before them. -/
def replaysRead (f : FrameRead) (at_ n : Nat) (kept : List Nat) : List Nat :=
  (kept.zipIdx.filter fun x => decide (64 ≤ n + x.2) || bitOf ((f (at_ + 272 * (n + x.2) + 256) 1).getD 0 0) 62).map Prod.fst

/-! ### The area of a stopped bundle -/

/-- The stop state: DONE and MASK, the cycle of the issue, the PAUSE ticks that remain, the hazard monitor (R87, R115). -/
def stopBytes (b : Option Bundle) (cyc pause : Nat) (hazard : Option Nat) : List Byte :=
  let dm : Nat := match b with | some b => b.mask.toNat * 256 + b.done.toNat | none => 0
  sized 1024 (wordsBytes [dm, cyc, pause, match hazard with | some x => x % 2 ^ 63 | none => 2 ^ 63])

/-- A PAUSE's remaining ticks, of a stage that counts what remains. -/
def Stage.left : Stage → Nat
  | .pauseUntil t => t
  | _ => 0

/-- The 28,672 bytes of the code that the context runs. -/
def Core.stopArea (now : Nat) (c : Core) : List Byte :=
  let a := c.act
  let pause := match a.stage with | some (.pauseUntil t) => t - now | _ => 0
  a.regs.lat.toList.flatMap (fun x => toBytes 256 x.toNat) ++ stopBytes a.bun a.cyc pause a.hazard ++
    c.snapBytes a.view a.wins ((a.bun.map fun b => b.slots).getD []) ++ entryBytes a.cyc a.flights a.replay

/-- The 28,672 bytes of the code that a local handler interrupted; its results count from the cycle that resumes it (R93). -/
def Core.saveArea (c : Core) : List Byte :=
  match c.act.save with
  | none => zeroBytes 28672
  | some v =>
    v.lat.toList.flatMap (fun x => toBytes 256 x.toNat) ++
      stopBytes v.bun ((v.bun.map fun b => b.cyc).getD 0) ((v.stage.map Stage.left).getD 0) none ++
      c.snapBytes (v.snap.getD c.act.regs) v.wins ((v.bun.map fun b => b.slots).getD []) ++ entryBytes 0 v.flights []

/-- The latches at an offset. -/
def latchesAt (f : FrameRead) (at_ : Nat) : Vector Vec 12 := Vector.ofFn fun (i : Fin 12) => vecAt f (at_ + 256 * i.val)

/-- The stopped bundle as its area gives it: DONE, the cycle, and what its uncommitted slots read (R91). A slot that MASK no longer names
counts as committed. -/
def Core.bundleAt (c : Core) (f : FrameRead) (at_ now : Nat) (r : RegFile) (wins : List (Nat × Win)) (b : Bundle) : Bundle :=
  let stop := f (at_ + 0xC00) 2
  let off : BitVec 7 := BitVec.ofNat 7 (stop.getD 0 0) ||| ~~~(BitVec.ofNat 7 (stop.getD 0 0 / 256))
  let left := (b.slots.filter fun i => match i.slot? with | some n => !off.getLsbD n | none => false).map fun i =>
    c.readSnap f (at_ + 0x1000 + 1024 * (i.slot?.getD 0).val) r wins i
  { b with done := off &&& b.mask, cyc := stop.getD 1 0, tick := now, slots := left.map Prod.fst, snaps := left.filterMap Prod.snd,
           bank := (0, 0) }

/-- Every uncommitted slot is among those that the bundle holds. -/
def Bundle.held (b : Bundle) : Bool :=
  (List.range 7).all fun n => !b.mask.getLsbD n || b.done.getLsbD n || b.slots.any fun i => i.slot?.map Fin.val == some n

/-- The trap save area of a deep frame whose ESTAT.IN is 1. -/
def Core.saveAt (c : Core) (f : FrameRead) (at_ now : Nat) (r : RegFile) (v : TrapSave) : TrapSave :=
  { v with lat := latchesAt f at_, flights := flightsRead f (at_ + 0x2C00) 0 v.flights,
           bun := v.bun.map (c.bundleAt f at_ now (v.snap.getD r) v.wins),
           stage := v.stage.map fun s => match s with | .pauseUntil _ => .pauseUntil ((f (at_ + 0xC10) 1).getD 0 0) | s => s }

end Sys2Proof.Machine
end

