-- ==== Sys2Proof/Machine/StreamEvents.lean ====
section
/-! DEFINITION. The stream units' own steps: prefetch of inbound windows after their gate, and drain of outbound
windows (R299-R302). -/

namespace Sys2Proof.Machine

/-- Touches runs of bytes in order. -/
def touchAll : List (Nat × Nat) → State → State × Touch
  | [], s => (s, .ok)
  | r :: rs, s =>
    match touch r.1 r.2 s with
    | (s1, .ok) => touchAll rs s1
    | x => x

/-- The window's vector as the scratchpad holds it, or as racing tile operations leave it: unused elements are zero (R198, R299). -/
def Core.windowValue (c : Core) (seed : Nat) (p : Pattern) (win : Nat) : Vec :=
  BitVec.ofNat 2048 (ofBytes ((p.runs win).zipIdx.flatMap fun r =>
    if c.tile.ops = [] ∧ c.tile.past = [] then c.spRead r.1.1 r.1.2 else c.spRaced (seed + 8192 * r.2) unfenced r.1.1 r.1.2))

/-- Offset of the first byte of the window that has an uncorrectable error. -/
def Core.windowBad (c : Core) (p : Pattern) (win : Nat) : Option Nat :=
  (p.runs win).findSome? fun r => (List.range r.2).findSome? fun i =>
    if c.spBad.contains (c.physOff (r.1 + i)) then some (r.1 + i) else none

/-- A stream unit's window that a fill fault stops (R92, R267). -/
def streamTrap (f : Fin 8) (gva : Word) (r l : Nat) (s : State) : State :=
  landingTrap (accessTrap 3 gva gva r l) (some (replayFeed f.val)) s

/-- The unit's window waits for RESUME (R92). -/
def streamHeld (c : Core) (f : Fin 8) : Bool := c.act.replay.contains (replayFeed f.val) && c.act.st != .running

/-- The inbound unit may read its next window (R300, R301). -/
def streamReadReady (c : Core) (f : Fin 8) : Bool :=
  match c.feeds[f] with
  | some fd => !fd.pat.out && decide (fd.buf.length < 4) && !gateWaits c fd && !streamHeld c f
  | none => false

/-- Prefetches the next window of an inbound stream. -/
def streamRead (f : Fin 8) (s : State) : State :=
  match s.core.feeds[f] with
  | none => s
  | some fd =>
    if !streamReadReady s.core f then s
    else
      match touchAll (fd.pat.runs fd.fetchWin) s with
      | (s1, .wait) => s1
      | (s1, .fault g r l) => streamTrap f g r l s1
      | (s1, .ok) =>
        let nx := fd.pat.advance fd.fetchWin fd.fetchPass
        clearReplay (replayFeed f.val) ({ s1 with draws := s1.draws + 65536 }.modCore fun c => { c with feeds := c.feeds.set f (some { fd with
          buf := fd.buf ++ [(c.windowValue s1.seed fd.pat fd.fetchWin, c.windowBad fd.pat fd.fetchWin)],
          fetchWin := nx.1, fetchPass := nx.2, gated := decide (nx.2 = fd.fetchPass) }) })

/-- STREAM_WINDOW_READ (R300). -/
def execStreamWindowRead (k : CoreKey) (f : Fin 8) (s : State) : Res := .next (settle s (streamRead f (s.focus k)))

/-- The core waits in its issue for feed `f` to drain: FDROP, FBIND, or a write to a full stream (R74). -/
def Ctx.waitsDrain (c : Ctx) (f : Fin 8) : Bool :=
  match c.bun with
  | none => false
  | some b =>
    c.phase == .issuing &&
      match b.slots with
      | .fdrop r :: _ => r.f == f
      | .fbind r :: _ => r.f == f
      | i :: _ => i.slot? == some 3 || i.slot? == some 5
      | [] => false

/-- The value of the oldest reserved window: landed, or that of its result in flight while the core waits for the
drain (R309, entry 18). -/
def Core.frontWindow (c : Core) (f : Fin 8) (fd : Feed) : Option (Nat × Nat × Vec) :=
  match fd.res with
  | (pa, wi, some x) :: _ => some (pa, wi, x)
  | (pa, wi, none) :: _ =>
    if c.act.waitsDrain f then
      (c.act.flights.findSome? fun fl => fl.writes.findSome? fun w =>
        match w with
        | .feed g k x => if g = f ∧ k = pa * 2 ^ 32 + wi then some x else none
        | _ => none).map fun x => (pa, wi, x)
    else none
  | [] => none

/-- The bytes of each run that a window's vector gives. -/
def windowCells (p : Pattern) (win : Nat) (x : Vec) : List (Nat × List Byte) :=
  let all := toBytes 256 x.toNat
  (p.runs win).zipIdx.map fun r => (r.1.1, (all.drop (r.1.2 * r.2)).take r.1.2)

/-- Writes the oldest reserved window of an outbound stream and credits its gate (R300, R301). -/
def streamWrite (f : Fin 8) (s : State) : State :=
  match s.core.feeds[f] with
  | none => s
  | some fd =>
    match (if fd.pat.out && !streamHeld s.core f then s.core.frontWindow f fd else none) with
    | none => s
    | some (_, wi, x) =>
      match touchAll (fd.pat.runs wi) s with
      | (s1, .wait) => s1
      | (s1, .fault g r l) => streamTrap f g r l s1
      | (s1, .ok) =>
        let s2 := clearReplay (replayFeed f.val) (s1.modCore fun c =>
          let c1 := (windowCells fd.pat wi x).foldl (fun c e => c.spWrite e.1 e.2) c
          { c1 with feeds := c1.feeds.set f (some { fd with res := fd.res.drop 1 }) })
        if fd.pat.gen then
          creditHandle fd.pat.gate (fd.pat.bytes wi) true
            { ctxid := s.core.act.id s.key, einfo := BitVec.ofNat 64 f.val,
              gva := BitVec.ofNat 64 ((fd.pat.addr (wi * fd.pat.per)).toNat), detail0 := BitVec.ofNat 64 wi,
              detail1 := 2 * 2 ^ 8 + fd.pat.gate.val } s2
        else s2

/-- An outbound window can be written. -/
def streamWriteReady (c : Core) (f : Fin 8) : Bool :=
  match c.feeds[f] with
  | some fd => fd.pat.out && (c.frontWindow f fd).isSome && !streamHeld c f
  | none => false

/-- STREAM_WINDOW_WRITE (R300). -/
def execStreamWindowWrite (k : CoreKey) (f : Fin 8) (s : State) : Res := .next (settle s (streamWrite f (s.focus k)))

end Sys2Proof.Machine
end

