-- ==== Sys2Proof/Machine/TileEvents.lean ====
section
/-! DEFINITION. The term engine's own steps: a queued operation starts, an operation completes (R197-R210, R441). -/

namespace Sys2Proof.Machine

/-- Row groups of an operation with the codes of their B (R210). -/
def rowGroups (c : Core) (work : TileWork) : List RowGroup :=
  match work with
  | .mta _ b fmt _ _ _ _ => [⟨0, 128, fetchB c b (opWidth (bfmt fmt))⟩]
  | .mtg _ base pitch groups fmt _ _ _ =>
    (groups.foldl (fun (acc : List RowGroup × Nat) g =>
      if grpRows g = 0 then acc
      else (acc.1 ++ [⟨acc.2, grpRows g, fetchB c (.sp (tileBase base pitch g) pitch) (opWidth (bfmt fmt))⟩],
            acc.2 + grpRows g)) ([], 0)).1
  | _ => []

/-- What a product writes (R202-R205, R210). -/
def productEff (c : Core) (a : TOperand) (fmt : Word) (acc ps : Bool) (wacc : Fin 8) (spare : Vec) (gs : List RowGroup) :
    TileEff :=
  let av := fetchA c a (opWidth (afmt fmt))
  let cost := productCost fmt spare gs
  let terms := termsByTick fmt spare gs
  if narrowPair fmt then
    if gs = [] then ⟨none, none, [], cost.2, terms⟩
    else
      let old := c.tile.ps[b2n ps]'(by unfold b2n; split <;> omega)
      let r := narrowResult fmt acc spare av gs old (psTag c.tile.greg[5] ps)
      ⟨none, some (ps, psOfList (r.1.map (·.toNat)), r.2.1, r.2.2), [], cost.2, terms⟩
  else ⟨some (wacc, mOfList (wideResult fmt av gs c.tile.m[wacc]), (gs.map (·.rows)).sum), none, [], cost.2, terms⟩

/-- Scratchpad bytes of a row of a scratchpad operand (R193). -/
def rowCells (base pitch : Word) (i n x : Nat) : List Host.Cell :=
  (List.range n).map fun b => (tileAddr base pitch i b, BitVec.ofNat 8 (x / 256 ^ b))

/-- What an operation writes, from the state in which it reads (R197, R213-R217). -/
def tileEffect (c : Core) (work : TileWork) : TileEff :=
  match work with
  | .mld m base pitch =>
    let v : List Nat :=
      if m.dir = .row then
        (List.range 128).flatMap fun r =>
          let x := tileRow c base pitch r 256
          (List.range 64).map fun k => fld x (32 * k) 32
      else
        let rows := (List.range 64).map fun k => tileRow c base pitch k 512
        (List.range 128).flatMap fun r => (List.range 64).map fun k => fld (rows.getD k 0) (32 * r) 32
    ⟨some (m.m, mOfList v, 128), none, [], [], []⟩
  | .mst m base pitch =>
    let x := c.tile.m[m.m]
    let cells :=
      if m.dir = .row then
        (List.range 128).flatMap fun r => rowCells base pitch r 256 (mElem x 2048 r 0)
      else
        (List.range 64).flatMap fun k =>
          rowCells base pitch k 512 (ofLanes 32 ((List.range 128).map fun r => mGet x r k))
    ⟨none, none, cells, [], []⟩
  | .mstPs ps base pitch =>
    let x := c.tile.ps[b2n ps]'(by unfold b2n; split <;> omega)
    ⟨none, none, (List.range 128).flatMap fun r =>
      rowCells base pitch r 512 (ofLanes 64 ((List.range 64).map fun j => (psGet x r j).toNat)), [], []⟩
  | .mz m => ⟨some (m, 0, 128), none, [], [], []⟩
  | .mzPs ps => ⟨none, some (ps, 0, 127, some false), [], [], []⟩
  | .mta a _ fmt acc ps wacc spare => productEff c a fmt acc ps wacc spare (rowGroups c work)
  | .mtg a _ _ _ fmt ps wacc spare => productEff c a fmt true ps wacc spare (rowGroups c work)
  | .msca ps k scale =>
    let x := c.tile.ps[b2n ps]'(by unfold b2n; split <;> omega)
    let tag := psTag c.tile.greg[5] ps
    let old := c.tile.m[k]
    ⟨some (k, mOfList ((List.range 128).flatMap fun r => (List.range 64).map fun j =>
        scaleLane scale tag (.ofCode (psGet x r j)) (mGet old r j) r j), 128), none, [], [], []⟩

/-- Ticks from T0 to F (R197, R207). -/
def tileTicks (c : Core) (work : TileWork) : Nat :=
  match work with
  | .mz _ | .mzPs _ => 1
  | .mld _ _ _ | .mst _ _ _ | .msca _ _ _ => 16
  | .mstPs _ _ _ => 32
  | .mta _ _ fmt _ _ _ spare | .mtg _ _ _ _ fmt _ _ spare => (productCost fmt spare (rowGroups c work)).1

/-- The tail (R197). -/
def TileWork.tail : TileWork → Nat
  | .msca _ _ _ => 4
  | .mta _ _ _ _ _ _ _ | .mtg _ _ _ _ _ _ _ _ => 12
  | _ => 0

/-- T_end of an operation that has started (R197). -/
def TileOp.ends (o : TileOp) : Nat := o.finish + o.work.tail

/-- What an operation uses: m registers read, written; PS read, written; scratchpad runs with their direction. -/
structure Uses where
  mR : List (Fin 8)
  mW : List (Fin 8)
  pR : List Bool
  pW : List Bool
  runs : List (Nat × Nat × Bool)
  deriving DecidableEq, Repr

/-- The scratchpad runs of an operand: each row lies in its aligned 2 KiB blocks whatever ROT holds (R193). -/
def runsOf (base pitch : Word) (rows bytes : Nat) (w : Bool) : List (Nat × Nat × Bool) :=
  (List.range rows).map fun i => (fld base.toNat 0 22 + i * pitchRP pitch, bytes, w)

def operandUse (op : TOperand) (rows bytes : Nat) : Uses :=
  match op with
  | .m x => ⟨[mwReg x], [], [], [], []⟩
  | .sp base pitch => ⟨[], [], [], [], runsOf base pitch rows bytes false⟩

def Uses.join (a b : Uses) : Uses := ⟨a.mR ++ b.mR, a.mW ++ b.mW, a.pR ++ b.pR, a.pW ++ b.pW, a.runs ++ b.runs⟩

/-- The accumulator of a product. -/
def accUse (fmt : Word) (acc ps : Bool) (wacc : Fin 8) : Uses :=
  if narrowPair fmt then ⟨[], [], if acc then [ps] else [], [ps], []⟩ else ⟨[wacc], [wacc], [], [], []⟩

def usesOf (work : TileWork) : Uses :=
  match work with
  | .mld m b p => ⟨[], [m.m], [], [], runsOf b p (tilShape m).1 (tilShape m).2 false⟩
  | .mst m b p => ⟨[m.m], [], [], [], runsOf b p (tilShape m).1 (tilShape m).2 true⟩
  | .mstPs ps b p => ⟨[], [], [ps], [], runsOf b p 128 512 true⟩
  | .mz m => ⟨[], [m], [], [], []⟩
  | .mzPs ps => ⟨[], [], [], [ps], []⟩
  | .mta a b fmt acc ps wacc _ =>
    ((operandUse a 128 (32 * opWidth (afmt fmt) / 8)).join (operandUse b 32 (64 * opWidth (bfmt fmt) / 8))).join
      (accUse fmt acc ps wacc)
  | .mtg a base pitch groups fmt ps wacc _ =>
    ((groups.filter fun g => grpRows g != 0).foldl (fun u g =>
      u.join (operandUse (.sp (tileBase base pitch g) pitch) 32 (64 * opWidth (bfmt fmt) / 8)))
      (operandUse a 128 (32 * opWidth (afmt fmt) / 8))).join (accUse fmt true ps wacc)
  | .msca ps c _ => ⟨[c], [c], [ps], [], []⟩

/-- `later` reads or writes something that `earlier` writes: the E_dep of R197. -/
def dependsOn (earlier later : Uses) : Bool :=
  (earlier.mW.any fun x => later.mR.contains x || later.mW.contains x) ||
  (earlier.pW.any fun x => later.pR.contains x || later.pW.contains x) ||
  (earlier.runs.any fun r => r.2.2 && later.runs.any fun q =>
    decide (r.1 < q.1 + q.2.1) && decide (q.1 < r.1 + r.2.1))

/-- First operation that has not read its operands, with those before it. -/
def nextTile (ops : List TileOp) : Option (TileOp × List TileOp) :=
  match ops.find? fun o => o.eff.isNone with
  | some o => some (o, ops.takeWhile fun x => x.eff.isSome)
  | none => none

/-- `o` starts on this tick, its T0, or has started and waits for its granules (R197). -/
def tileReady (s : State) (o : TileOp) (before : List TileOp) : Bool :=
  !o.stopped &&
    (o.start.isSome ||
      (decide (o.entered + 5 ≤ s.time) && decide (s.core.tile.fPrev ≤ s.time) && !fenceBlocks s 4 o.seq &&
        before.all fun e => !dependsOn (usesOf e.work) (usesOf o.work) || decide (e.ends ≤ s.time)))

/-- Touches the granules of the operation's scratchpad runs. -/
def touchRuns : List (Nat × Nat × Bool) → State → State × Touch
  | [], s => (s, .ok)
  | r :: rs, s =>
    match touch r.1 r.2.1 s with
    | (s1, .ok) => touchRuns rs s1
    | x => x

/-- The bytes of a row of a scratchpad operand, in address order of the unrotated row (R193). -/
def rowAddrs (base pitch : Word) (rows bytes : Nat) : List Nat :=
  (List.range rows).flatMap fun i => (List.range bytes).map fun b => tileAddr base pitch i b

/-- Scratchpad bytes that an operation reads, at the addresses that ROT gives them. -/
def readAddrs (work : TileWork) : List Nat :=
  let a (op : TOperand) (rows bytes : Nat) : List Nat := match op with | .sp b p => rowAddrs b p rows bytes | .m _ => []
  match work with
  | .mld m b p => rowAddrs b p (tilShape m).1 (tilShape m).2
  | .mta x y fmt _ _ _ _ => a x 128 (32 * opWidth (afmt fmt) / 8) ++ a y 32 (64 * opWidth (bfmt fmt) / 8)
  | .mtg x base pitch groups fmt _ _ _ =>
    a x 128 (32 * opWidth (afmt fmt) / 8) ++ (groups.filter fun g => grpRows g != 0).flatMap fun g =>
      rowAddrs (tileBase base pitch g) pitch 32 (64 * opWidth (bfmt fmt) / 8)
  | _ => []

/-- The first operand with an uncorrectable error: a scratchpad offset in row order, A before B, then an m register's number (R199; the
order is the model's choice, entry 7). -/
def badOperand (c : Core) (work : TileWork) : Option Nat :=
  if c.spBad = [] ∧ c.tile.mBad = [] then none
  else
    match (readAddrs work).find? fun a => c.spBad.contains (c.physOff a) with
    | some a => some a
    | none => ((usesOf work).mR.find? fun m => c.tile.mBad.contains m).map Fin.val

/-- Replaces the operation of a number. -/
def setTile (o : TileOp) (s : State) : State :=
  s.modCore fun c => { c with tile := { c.tile with ops := c.tile.ops.map fun x => if x.seq = o.seq then o else x } }

/-- A landing-time trap of a tile operation, which becomes a replay entry (R92, R199, R267). -/
def tileTrap (o : TileOp) (t : Trap) (s : State) : State :=
  landingTrap t (some (replayTile o.seq)) (setTile { o with start := none, stopped := true } s)

/-- Applies the writes of an operation (R197, R208). -/
def Core.applyTile (c : Core) (e : TileEff) : Core :=
  let t := c.tile
  let m := match e.m with
    | some (r, v, n) =>
      let low : BitVec 262144 := BitVec.ofNat 262144 (2 ^ (2048 * n) - 1)
      t.m.set r ((v &&& low) ||| (t.m[r] &&& ~~~low))
    | none => t.m
  let t1 := match e.ps with
    | some (p, v, tag, ov) =>
      { t with ps := t.ps.set (b2n p) v (by unfold b2n; split <;> omega), greg := t.greg.set 5 (setPst t.greg[5] p tag ov) }
    | none => t
  let cnt := (e.cnt.zipIdx).foldl (fun (v : Vector Word 32) x =>
    v.set (Fin.ofNat 32 x.2) (v[Fin.ofNat 32 x.2] + BitVec.ofNat 64 x.1)) t.cnt
  let mBad := match e.m with
    | some (r, _, n) => if 128 ≤ n then t.mBad.filter (· != r) else t.mBad
    | none => t.mBad
  let c1 := { c with tile := { t1 with m := m, cnt := cnt, mBad := mBad } }
  e.cells.foldl (fun c x => c.spPut x.1 [x.2]) c1

/-- What the operands of an operation that now reads them hold. -/
def Core.tileSeen (c : Core) : TileSeen := ⟨c.spm, c.tile.m, c.tile.ps, c.tile.greg[5]⟩

/-- A queued operation starts on this tick, and reads its operands once their granules are filled; each tick of that wait moves F by
one (R197). -/
def tileStart (s : State) : State :=
  match nextTile s.core.tile.ops with
  | none => s
  | some (o, before) =>
    if !tileReady s o before then s
    else
      match touchRuns (usesOf o.work).runs s with
      | (s1, .wait) => setTile { o with start := some (o.start.getD s.time) } s1
      | (s1, .fault g r l) => tileTrap o (accessTrap 4 g g r l) s1
      | (s1, .ok) =>
        match badOperand s1.core o.work with
        | some a => tileTrap o ⟨0x13, 4, BitVec.ofNat 64 a, 0, 0⟩ s1
        | none =>
          let f := s1.time + tileTicks s1.core o.work
          (setTile { o with start := some (o.start.getD s1.time), finish := f, eff := some (tileEffect s1.core o.work),
                            seen := some s1.core.tileSeen } s1).modCore fun c => { c with tile := { c.tile with fPrev := f } }

/-- TILE_OP_START (R197). -/
def execTileOpStart (k : CoreKey) (s : State) : Res := .next (settle s (tileStart (s.focus k)))

/-- The first operation whose T_end has come and which has not written. -/
def dueTile (s : State) : Option TileOp :=
  s.core.tile.ops.find? fun o => o.eff.isSome && !o.done && decide (o.ends ≤ s.time)

/-- The values among which a racing byte or element is chosen: that before the first racing write, and each that was written. -/
def raceValues (w : Raced) (ws : List Raced) : List Nat :=
  let same := ws.filter fun x => x.reg == w.reg && x.row == w.row && x.col == w.col
  (same.head?.map fun x => x.was).toList ++ same.map fun x => x.now

/-- Width of the elements that an operation reads in an m register. -/
def raceWidth (work : TileWork) (r : Fin 8) : Nat :=
  let of (op : TOperand) (code : Nat) : Nat := match op with | .m x => (if mwReg x = r then opWidth code else 32) | .sp _ _ => 32
  match work with
  | .mta a b fmt _ _ _ _ => Nat.min (of a (afmt fmt)) (of b (bfmt fmt))
  | .mtg a _ _ _ fmt _ _ _ => of a (afmt fmt)
  | _ => 32

/-- A lane each of whose elements of width `w` is that of one of the values. -/
def mixLane (seed w : Nat) (l : List Nat) : Nat :=
  ofLanes w ((List.range (32 / w)).map fun j => fld (l.getD (Config.pick (seed + 32 * j) % l.length) 0) (w * j) w)

/-- The operands of an operation, each byte or element that others have written meanwhile being one of its values (R186, R198). -/
def Core.tileView (c : Core) (o : TileOp) (seed : Nat) : Core :=
  let c0 := match o.seen with
    | some v => { c with spm := v.spm, tile := { c.tile with m := v.m, ps := v.ps, greg := c.tile.greg.set 5 v.pst } }
    | none => c
  o.raced.zipIdx.foldl (fun c x =>
    let l := raceValues x.1 o.raced
    match x.1.reg with
    | none => { c with spm := c.spm.write (c.physOff x.1.row) (BitVec.ofNat 8 (mixLane (seed + 256 * x.2) 32 l)) }
    | some r =>
      { c with tile := { c.tile with m := c.tile.m.set r (mSet c.tile.m[r] x.1.row x.1.col (mixLane (seed + 256 * x.2) (raceWidth o.work r) l)) } })
    c0

/-- The last value that another party has written to a racing byte or element. -/
def lastRaced (raced : List Raced) (p : Option (Fin 8) × Nat × Nat) : Nat :=
  match raced.reverse.find? fun w => (w.reg, w.row, w.col) == p with
  | some w => w.now
  | none => 0

/-- Of what both the operation and other parties have written, each byte or element ends with the operation's value or with the last of
theirs (R186, R198). -/
def TileEff.contested (e : TileEff) (raced : List Raced) (seed : Nat) : TileEff :=
  let places := (raced.map fun w => (w.reg, w.row, w.col)).eraseDups
  let kept := (places.zipIdx.filter fun x => Config.pick (seed + 32 * x.2) % 2 == 1).map Prod.fst
  { e with
    cells := e.cells.filter fun x => !(kept.any fun p => p.1 == none && p.2.1 == x.1)
    m := e.m.map fun y => (y.1, kept.foldl (fun v p => if p.1 = some y.1 then mSet v p.2.1 p.2.2 (lastRaced raced p) else v) y.2.1, y.2.2) }

/-- What an operation gives at its T_end: what its operands gave at its start, or with the races since (entry 7). -/
def tileResult (s : State) (o : TileOp) : TileEff :=
  let e := o.eff.getD (tileEffect s.core o.work)
  if o.raced = [] then e else { tileEffect (s.core.tileView o s.seed) o.work with cnt := e.cnt, terms := e.terms }

/-- What an operation writes at its T_end. -/
def tileWrites (s : State) (o : TileOp) : TileEff :=
  if o.raced = [] then tileResult s o else (tileResult s o).contested o.raced (s.seed + 256 * o.raced.length)

/-- An operation behind one that has given `e` sees its writes: where another party has written an element that the one ahead wrote too,
the old value is that of the one ahead (R186, R198). -/
def TileOp.behind (e : TileEff) (o : TileOp) : TileOp :=
  { o with raced := o.raced.map fun w =>
      match w.reg, e.m with
      | some r, some (d, v, n) => if r = d ∧ w.row < n then { w with was := mGet v w.row w.col } else w
      | _, _ => w }

/-- What an operation overwrites. -/
def TileEff.overwrites (e : TileEff) (c : Core) (o : TileOp) : TilePast :=
  { seq := o.seq, fence := o.fence, cells := e.cells.map fun x => (x.1, c.spm.read (c.physOff x.1)),
    m := e.m.map fun y => (y.1, c.tile.m[y.1], y.2.2) }

/-- An operation completes: all its writes take effect (R197, R198), and a replay entry of it has been performed (R92). It counts as
incomplete until the tick ends. -/
def tileComplete (s : State) : State :=
  match dueTile s with
  | none => s
  | some o =>
    let e := tileWrites s o
    setTile { o with done := true } ({ s with draws := s.draws + 9 * o.raced.length + 1 }.modCore fun c =>
      let c1 := c.applyTile e
      { c1 with
        tile := { c1.tile with past := c1.tile.past ++ [e.overwrites c o], ops := c1.tile.ops.map (TileOp.behind (tileResult s o)) },
        act := { c1.act with replay := c1.act.replay.filter (· != replayTile o.seq) } })

/-- TILE_OP_COMPLETE (R197). -/
def execTileOpComplete (k : CoreKey) (s : State) : Res := .next (settle s (tileComplete (s.focus k)))

/-- Operations that have completed leave the queue when their tick is over (R74, R196). -/
def Core.tileRetire (c : Core) : Core := { c with tile := { c.tile with ops := c.tile.ops.filter fun o => !o.done } }

/-- The granules of a scratchpad run are filled (R260). -/
def Core.runReady (c : Core) (r : Nat × Nat × Bool) : Bool :=
  (gransOf r.1 r.2.1).all fun g =>
    (c.regionAt (4096 * g)).isNone || match c.granSt g with
      | .clean | .dirty | .writing _ _ => true
      | _ => false

/-- The runs that an operation touches before those of B: of A, or of a load or store. -/
def runsAhead : TileWork → List (Nat × Nat × Bool)
  | .mta a _ fmt _ _ _ _ | .mtg a _ _ _ fmt _ _ _ => (operandUse a 128 (32 * opWidth (afmt fmt) / 8)).runs
  | w => (usesOf w).runs

/-- A started operation waits for a granule of B. -/
def TileOp.fillsB (o : TileOp) (c : Core) : Bool := o.start.isSome && o.eff.isNone && !o.stopped && (runsAhead o.work).all c.runReady

/-- The operation is in its fetch and recode ticks (R197). -/
def TileOp.fetches (o : TileOp) (now : Nat) : Bool := o.start.isNone && !o.stopped && decide (now < o.entered + 5)

/-- Class of the tick that is ending and the address it is charged to (R441): 0 computing, 1 loading weights, 2 awaiting
activations, 3 blocked on result drain, 4 without command. -/
def tileClass (c : Core) (now : Nat) : Nat × Nat :=
  let running := c.tile.ops.find? fun o => o.eff.isSome && decide (now < o.finish)
  let loading := c.tile.ops.find? fun o => o.fetches now || o.fillsB c
  let waiting := c.tile.ops.find? fun o => o.eff.isNone
  let tail := c.tile.ops.find? fun o => o.eff.isSome && decide (o.finish ≤ now) && decide (now < o.ends)
  match running, loading, waiting, tail with
  | some o, _, _, _ => (0, o.addr)
  | none, some o, _, _ => (1, o.addr)
  | none, none, some o, _ => (2, o.addr)
  | none, none, none, some o => (3, o.addr)
  | none, none, none, none => (4, 0x3FFFFF)

/-- Terms that the array applies on the tick that is ending (R438). -/
def Core.termsNow (c : Core) (now : Nat) : Nat :=
  (c.tile.ops.map fun o =>
    match o.eff with
    | some e => if now < o.finish then e.terms.getD (now + e.terms.length - o.finish) 0 else 0
    | none => 0).sum

end Sys2Proof.Machine
end

