-- ==== Sys2Proof/Machine/Frames.lean ====
section
/-! DEFINITION. The sweeper's additions (R439) and the frames of saved contexts (R87, R88, R200, R262, R272, R276, R303,
R350, R376, R379). -/

namespace Sys2Proof.Machine

/-! ### Sweeps -/

/-- Adds the difference of counter `n` of core `k` to its total; a total that is not written keeps its difference. -/
def sweepOne (k : CoreKey) (p : Fin 24) (n : Fin 25) (s : State) : State :=
  let c := s.coreAt k
  let g := (s.part p).cntbase + BitVec.ofNat 64 (512 * (100 * k.cl.val + k.sl.val) + 8 * n.val)
  let seen (s : State) : State := s.modAt k fun c => { c with evSeen := c.evSeen.set n c.ev[n] }
  if (s.part p).cntbase = 0 then seen s
  else
    let r := rootAdd p g (c.ev[n] - c.evSeen[n]).toNat s
    if r.2 then seen r.1 else r.1

/-- The sweeper visits core `k` for the partition (R439). -/
def sweep (k : CoreKey) (p : Fin 24) (s : State) : State := (List.finRange 25).foldl (fun s n => sweepOne k p n s) s

/-! ### Writing -/

/-- Context states as codes (R77). -/
def CtxState.code : CtxState → Nat
  | .empty => 0 | .standby => 1 | .running => 2 | .frozen => 3 | .parked => 4 | .preempted => 5 | .done => 6

/-- Copy commands that wait in the time-sorted buffer, in issue order (R83). -/
def Core.waitingCopies (c : Core) : List Copy := (c.copies.filter fun x => x.st == 0).sortBy fun a b => decide (a.id ≤ b.id)

/-- Inbound entries in arrival order (R384). -/
def Port.arrival (p : Port) : List InSlot := p.inb.sortBy fun a b => decide (a.order ≤ b.order)

/-- The frame header (R88). NNOT counts the notices alone, not the landing buffers that share the 512 entries (entry 14, DESIGN CHOICE). -/
def headerBytes (s : State) (k : CoreKey) (c : Core) (deep : Bool) : List Byte :=
  wordsBytes [0x5A484346 * 2 ^ 32 + 2 ^ 16 + b2n deep * 2 ^ 8 + (if deep then 4 else 5), c.act.pos, (c.act.id k).toNat, s.time,
    c.act.loops.length, c.waitingCopies.length,
    (c.port.inb.filter fun e => e.state != 7).length + c.port.blocks.length * 2 ^ 32, 0]

def Loop.words (l : Loop) : List Nat := [l.index.toNat, l.count.toNat, l.start.toNat, l.fin.toNat]

/-- The context system registers in number order (R87, R97). -/
def sysBytes (s : State) (k : CoreKey) (c : Ctx) : List Byte :=
  let r := c.sys
  wordsBytes ([BitVec.ofNat 64 c.vcyc, BitVec.ofNat 64 c.frzt, r.cstat, c.id k, (s.part c.part).gracecfg, r.fctl, r.srs, r.tvec,
    r.tmask, r.epos, r.ecause, r.einfo, r.edone, r.estat, r.pkey[0], r.pkey[1], r.pkey[2], r.pkey[3], r.chunk,
    r.pace].map (·.toNat))

/-- An inbound feed goes back to the first window not yet taken, and gated passes wait again (R303). -/
def Feed.atBoundary (f : Feed) : Feed :=
  if f.pat.out then f else { f with buf := [], fetchWin := f.win, fetchPass := f.pass, gated := false }

/-- A feed's 64 bytes (R303): the pattern as R299 lays it out, then bit 63 with the window, and the passes begun, whose lowest bit is the
parity; the places of the last two words are the model's (entry 14). -/
def feedBytes : Option Feed → List Byte
  | none => zeroBytes 64
  | some f =>
    let p := f.pat
    let e (i : Nat) : Nat := p.e.getD i 0
    sized 64 (wordsBytes [b2n p.gph * 2 ^ 36 + p.gate.val * 2 ^ 28 + b2n p.gen * 2 ^ 27 + p.fmt * 2 ^ 23 + b2n p.out * 2 ^ 22 + p.base,
      e 0 + e 1 * 2 ^ 16 + e 2 * 2 ^ 32 + e 3 * 2 ^ 48] ++ (p.s.flatMap fun x => toBytes 4 x.toNat) ++
      wordsBytes [2 ^ 63 + f.win, f.pass])

/-- A region descriptor (R258). -/
def Region.words (r : Region) : List Nat :=
  [r.gva.toNat, r.size * 2 ^ 32 + r.spa, b2n r.refill * 32 + r.span * 4 + r.mode, 0]

/-- A frame records REFILL = 1 for every wb region (R262). -/
def Region.saved (r : Region) : Region := if r.mode = 2 then { r with refill := true } else r

/-- The buffer table with the waiters of each handle (R276). -/
def Core.handleBytes (c : Core) : List Byte :=
  wordsBytes ((List.finRange 256).flatMap fun i => [c.handles[i].exp * 2 ^ 32 + c.handles[i].arr, c.handleWord i])

/-- A waiting copy command (R83, R87): its word of the descriptor holds the kind, Q and AC above the SPA (entry 14), then the release
TIME. -/
def Copy.words (x : Copy) : List Nat :=
  let kind : Nat := match x.kind with | .move => 0 | .gather => 1 | .scatter => 2 | .reduce => 3
  [kind * 2 ^ 62 + x.q.val * 2 ^ 60 + x.ac.val * 2 ^ 58 + x.desc, x.rel]

/-- The tag table set by set (R272). -/
def Core.tagBytes (c : Core) : List Byte :=
  wordsBytes ((List.range 512).map fun i =>
    match c.tags.find? fun w => w.set == i / 8 && w.way == i % 8 with
    | some w => w.key * 2 ^ 11 + w.slot
    | none => 0x7FF)

/-- An inbound entry (R376, R384); a landing buffer's fields beside TAG and STATE lie as NSTAT gives them (entry 14). The frame holds no
PULLING notice (R399). -/
def InSlot.words (e : InSlot) : List Nat :=
  match e.e with
  | .notice n _ st loc _ =>
    [n.tag.toNat * 2 ^ 32 + n.block.toNat,
     n.peer * 2 ^ 52 + n.gang * 2 ^ 47 + n.role * 2 ^ 40 + n.prio * 2 ^ 37 + b2n n.dlv * 2 ^ 36 + b2n n.spm * 2 ^ 35 + st * 2 ^ 32 +
       n.size, loc.toNat, n.deadline.toNat * 2 ^ 32 + n.task]
  | .landing t b sz u h => [t.toNat * 2 ^ 32, 7 * 2 ^ 32 + b, h.val * 2 ^ 56 + u * 2 ^ 32 + sz, 0]

/-- A block record (R379). -/
def Block.words (b : Block) : List Nat :=
  [b.tag.toNat * 2 ^ 32 + b.gen * 256 + b.idx,
   b2n b.flt * 2 ^ 57 + b.rcnt * 2 ^ 50 + b.st * 2 ^ 47 + b.prio * 2 ^ 44 + b2n b.spm * 2 ^ 43 + b.size, b.loc.toNat, b.due]

/-- The words of the 256 records; one that was never used is EMPTY with generation 0. -/
def Port.blockWords (p : Port) : List Nat :=
  (List.range 256).flatMap fun i =>
    match p.blocks.find? fun b => b.idx == i with
    | some b => b.words
    | none => [i, 0, 0, 0]

/-- The shallow part of a frame: 448 KiB (R87). -/
def shallowBytes (s : State) (k : CoreKey) (c : Core) (deep : Bool) : List Byte :=
  let r := c.act.regs
  headerBytes s k c deep ++
  sized 192 (wordsBytes (c.act.loops.reverse.flatMap Loop.words)) ++
  sized 256 (sysBytes s k c.act) ++
  (List.finRange 64).flatMap (fun i => toBytes 8 (r.rs i).toNat) ++
  (List.finRange 8).flatMap (fun i => toBytes 8 (r.rk i).toNat) ++
  sized 64 (toBytes 1 (((List.finRange 8).map fun i => b2n (r.rp i) * 2 ^ i.val).sum)) ++
  ((List.finRange 8).flatMap fun f => feedBytes (c.feeds[f].map Feed.atBoundary)) ++
  wordsBytes (c.tile.greg.toList.map (·.toNat)) ++ wordsBytes (c.tile.cnt.toList.map (·.toNat)) ++
  wordsBytes (c.regions.toList.flatMap fun x => x.saved.words) ++
  c.handleBytes ++
  c.tagBytes ++
  r.v.toList.flatMap (fun x => toBytes 256 x.toNat) ++
  sized 16384 (wordsBytes (c.waitingCopies.flatMap Copy.words)) ++
  sized 16384 (wordsBytes (c.port.arrival.flatMap InSlot.words)) ++
  wordsBytes c.port.blockWords ++ zeroBytes 4096 ++
  c.tile.m.toList.flatMap (fun x => toBytes 32768 x.toNat) ++
  c.tile.ps.toList.flatMap (fun x => toBytes 65536 x.toNat)

/-- The rest of a deep frame: 56 KiB (R87). -/
def deepBytes (s : State) (c : Core) : List Byte :=
  c.stopArea s.time ++ if c.act.inHandler then c.saveArea else zeroBytes 28672

/-- The barrier set (R346, R350). -/
def Barrier.words (b : Barrier) : List Nat :=
  [b2n (b.arr != 0) * 2 ^ 17 + b2n b.ph * 2 ^ 16 + b.count, b.arr.toNat % 2 ^ 64, b.arr.toNat / 2 ^ 64, 0]

/-- Bytes of a member's frame with what follows it for role 0. -/
def frameBytes (s : State) (k : CoreKey) (c : Core) (deep : Bool) : List Byte :=
  shallowBytes s k c deep ++ if deep then deepBytes s c else []

/-- Every page of `n` bytes at a GVA translates for a write. -/
def writable (pn : Fin 24) (gva : Word) (n : Nat) (s : State) : Bool :=
  (List.range ((n + 65535) / 65536)).all fun i =>
    match rootAt pn true (gva + BitVec.ofNat 64 (65536 * i)) s with | .ok _ => true | _ => false

/-- Writes bytes at a GVA line by line in their lines' order. -/
def putBytes (pn : Fin 24) (gva : Word) (bs : List Byte) (s : State) : State :=
  (List.range ((bs.length + 127) / 128)).foldl (fun s i =>
    match rootAt pn true (gva + BitVec.ofNat 64 (128 * i)) s with
    | .ok pa => ((refillLine pa s.drawn).reached (s.home pn (vaOf (gva + BitVec.ofNat 64 (128 * i)))) pa).sliceWrite pa
        ((bs.drop (128 * i)).take 128)
    | _ => s) s

/-! ### Reading -/

/-- Words of a frame at an offset, none where they cannot be read. -/
def frameWords (pn : Fin 24) (gva : Word) (off n : Nat) (s : State) : Option (List Nat) :=
  match rootWords pn (gva + BitVec.ofNat 64 off) n s with
  | .ok ws => some ws
  | _ => none

/-- The first page of a frame that does not translate is in STATE 2: the walk waits, and is repeated (R266). -/
def frameWaits (pn : Fin 24) (gva : Word) (s : State) : Bool :=
  ((List.range 8).map fun i => rootAt pn false (gva + BitVec.ofNat 64 (65536 * i)) s).find?
    (fun r => match r with | .ok _ => false | _ => true) == some .wait

/-- A region descriptor's words (R258). -/
def regionOf (w : List Nat) : Region :=
  { gva := BitVec.ofNat 64 (w.getD 0 0), size := fld (w.getD 1 0) 32 22, spa := fld (w.getD 1 0) 0 22,
    refill := bitOf (w.getD 2 0) 5, span := fld (w.getD 2 0) 2 3, mode := fld (w.getD 2 0) 0 2 }

/-- A descriptor valid by itself; MODE 0 is ignored (R258). One whose GVA, SIZE or SPA is no multiple of 4,096 is taken as invalid (entry 48,
DESIGN CHOICE). -/
def regionOk (w : List Nat) : Bool :=
  let r := regionOf w
  r.mode == 0 ||
    (r.gva.toNat % 4096 == 0 && fld (w.getD 1 0) 54 10 == 0 && fld (w.getD 1 0) 22 10 == 0 && w.getD 2 0 / 2 ^ 6 == 0 &&
      w.getD 3 0 == 0 && r.span != 7 && r.size % 4096 == 0 && r.spa % 4096 == 0 && decide (4096 ≤ r.size) &&
      decide (r.spa + r.size ≤ 0x300000))

/-- No two descriptors in use share a scratchpad byte (R258). -/
def regionsApart (rs : List Region) : Bool :=
  let used := rs.filter fun r => r.mode != 0
  used.zipIdx.all fun a => used.zipIdx.all fun b =>
    a.2 == b.2 || decide (a.1.spa + a.1.size ≤ b.1.spa) || decide (b.1.spa + b.1.size ≤ a.1.spa)

/-- Splits words into groups of `n`. -/
def groups (n : Nat) (ws : List Nat) : List (List Nat) := (List.range (ws.length / n)).map fun i => (ws.drop (n * i)).take n

/-- A header that a restore accepts: whether the frame is deep (R88). Its reserved bits are ignored (R87). A POS outside the scratchpad, at
which no bundle can stand, fails too (R30, entry 14, DESIGN CHOICE). -/
def headerOk (w : List Nat) : Option Bool :=
  let x (i : Nat) : Nat := w.getD i 0
  if fld (x 0) 32 32 == 0x5A484346 && fld (x 0) 16 16 == 1 && decide (fld (x 0) 8 8 ≤ 1) &&
      (fld (x 0) 0 8 == 4 || fld (x 0) 0 8 == 5) && x 1 % 4 == 0 && decide (x 1 < 0x300000) && decide (fld (x 4) 0 3 ≤ 6) &&
      decide (fld (x 5) 0 11 ≤ 1024) && decide (fld (x 6) 0 10 ≤ 512) && decide (fld (x 6) 32 9 ≤ 256) then
    some (fld (x 0) 8 8 == 1)
  else none

/-- A barrier record: COUNT equals its arrival bits and the res fields are zero (R350). -/
def barrierOf (w : List Nat) : Option Barrier :=
  let x (i : Nat) : Nat := w.getD i 0
  let b : Barrier := { ph := bitOf (x 0) 16, arr := BitVec.ofNat 96 (x 1 + x 2 % 2 ^ 32 * 2 ^ 64), xph := false }
  if x 0 / 2 ^ 18 == 0 && fld (x 0) 7 9 == 0 && x 2 / 2 ^ 32 == 0 && x 3 == 0 && fld (x 0) 0 7 == b.count then some b else none

/-- The barrier set of a frame of role 0. -/
def barriersAt (pn : Fin 24) (gva : Word) (s : State) : Option (List Barrier) :=
  (frameWords pn gva 0x7E000 64 s).bind fun ws => (groups 4 ws).mapM barrierOf

/-- A frame that a restore accepts: whether it is deep. -/
def frameOk (pn : Fin 24) (gva : Word) (s : State) : Option Bool :=
  match frameWords pn gva 0 8 s, frameWords pn gva 0x800 256 s with
  | some h, some r =>
    if ((groups 4 r).all regionOk && regionsApart ((groups 4 r).map regionOf)) = true then
      (headerOk h).bind fun deep =>
        if (frameWords pn gva 0 (if deep then 0xFC00 else 0xE000) s).isSome then some deep else none
    else none
  | _, _ => none

/-- The system registers of a frame: CSTAT.RESTORED is set, DEEP says the kind, PREQ does not outlast the save, and PEND says whether a
trap waits (R80, R85, R97). Reserved bits are ignored (R87). -/
def sysOf (deep pend : Bool) (w : List Nat) : SysRegs :=
  let x (i : Nat) (m : Word) : Word := BitVec.ofNat 64 (w.getD i 0) &&& m
  let all : Word := BitVec.allOnes 64
  { cstat := x 2 1 ||| 0x80 ||| (if deep then 0x40 else 0), fctl := x 5 0x1F1F, srs := x 6 0x1FFFFFFFF, tvec := x 7 (~~~3#64),
    tmask := x 8 tmaskBits, epos := x 9 all, ecause := x 10 0xFFF, einfo := x 11 all, edone := x 12 0x7F7F,
    estat := x 13 0xF ||| (if pend then 0x10 else 0), pkey := #v[x 14 0xF, x 15 0xF, x 16 0xF, x 17 0xF],
    chunk := x 18 0xC03FFFFF01FFDFFF, pace := x 19 0xFFFF }

/-- A handle of a frame. -/
def handleOf (w : List Nat) : Handle :=
  let x := w.getD 1 0
  { exp := fld (w.getD 0 0) 32 32, arr := fld (w.getD 0 0) 0 32, err := bitOf x 3, ph := bitOf x 2,
    st := match x % 4 with | 0 => .free | 1 => .filling | 2 => .full | _ => .draining }

/-- The tag table of a frame; way 0 of each set is the oldest (R272). -/
def tagsOf (ws : List Nat) : List TagWay :=
  ((ws.zipIdx.filter fun x => x.1 % 2048 != 0x7FF).map fun x => (⟨x.2 / 8, x.2 % 8, x.1 / 2 ^ 11, x.1 % 2048⟩ : TagWay)).reverse

/-- The register file of a frame; the latches only of a deep one (R47, R87). -/
def regsOf (f : FrameRead) (deep : Bool) : RegFile :=
  { s := Vector.ofFn fun (i : Fin 64) => BitVec.ofNat 64 ((f 0x200 64).getD i.val 0),
    p := BitVec.ofNat 8 ((f 0x440 1).getD 0 0),
    k := Vector.ofFn fun (i : Fin 8) => BitVec.ofNat 64 ((f 0x400 8).getD i.val 0),
    v := Vector.ofFn fun (i : Fin 32) => BitVec.ofNat 2048 (wordsNum (f (0x3000 + 256 * i.val) 32)),
    lat := if deep then latchesAt f 0x70000 else Vector.replicate 12 0 }

/-- Bits that a frame gives an engine register: GPST and 6-7 are taken as written, reserved bits of the others are ignored (R87, R191,
R200). -/
def frameMask (n : Nat) : Word := if n = 5 ∨ n = 6 ∨ n = 7 then BitVec.allOnes 64 else gregMask n

/-- The matrix state of a frame (R87, R200). -/
def tileOf (f : FrameRead) (ops : List TileOp) : Tile :=
  { greg := Vector.ofFn fun (i : Fin 16) => BitVec.ofNat 64 ((f 0x680 16).getD i.val 0) &&& frameMask i.val,
    m := Vector.ofFn fun (i : Fin 8) => BitVec.ofNat 262144 (wordsNum (f (0x10000 + 32768 * i.val) 4096)),
    ps := Vector.ofFn fun (i : Fin 2) => BitVec.ofNat 524288 (wordsNum (f (0x50000 + 65536 * i.val) 8192)),
    cnt := Vector.ofFn fun (i : Fin 32) => BitVec.ofNat 64 ((f 0x700 32).getD i.val 0), ops := ops, fPrev := 0 }

/-- The loop stack of a frame, innermost first. -/
def loopsOf (depth : Nat) (ws : List Nat) : List Loop :=
  (((groups 4 ws).take depth).map fun w =>
    let x (i : Nat) : Word := BitVec.ofNat 64 (w.getD i 0)
    (⟨x 0, x 1, x 2, x 3⟩ : Loop)).reverse

/-- A bound feed of a frame: it waits on its gate again (R303). `res` are the windows that an outbound feed still owes. -/
def feedOfFrame (w : List Nat) (res : List (Nat × Nat × Option Vec)) : Option Feed :=
  if bitOf (w.getD 4 0) 63 then
    let n := w.getD 4 0 % 2 ^ 63
    some { pat := patternOf w, win := n, pass := w.getD 5 0, fetchWin := n, fetchPass := w.getD 5 0, gated := false, buf := [], res := res }
  else none

/-- The waiting copies of a frame, with issue numbers from `id` and `no` on; `k` is the command that stood there at the save. The release
TIME is that of the present turn of TIME (R13, R86). -/
def copiesOf (now id no : Nat) (ws : List (List Nat)) (kept : List Copy) : List Copy :=
  ws.zipIdx.map fun x =>
    let w := x.1.getD 0 0
    let kind : CopyKind := match fld w 62 2 with | 0 => .move | 1 => .gather | 2 => .scatter | _ => .reduce
    { id := id + x.2, kind := kind, desc := fld w 0 22, rel := now / 2 ^ 64 * 2 ^ 64 + x.1.getD 1 0,
      u := (kept[x.2]?.map fun k => k.u).getD now, q := Fin.ofNat 4 (fld w 60 2), ac := Fin.ofNat 4 (fld w 58 2),
      no := (kept[x.2]?.map fun k => k.no).getD ((no + x.2) % 2 ^ 32), st := 0, joined := 0, box := none, next := 0, held := [],
      remain := 0, unacked := 0, handle := 0, hmode := false, reason := 0, pos := (kept[x.2]?.map fun k => k.pos).getD 0 }

/-- The notice or landing buffer of an inbound entry; a deferral goes on for the same notice. -/
def inEntryOf (part : Fin 24) (w : List Nat) (kept : List InSlot) : Option InEntry :=
  let x (i : Nat) : Nat := w.getD i 0
  let n : Notice := { tag := BitVec.ofNat 32 (fld (x 0) 32 32), block := BitVec.ofNat 32 (fld (x 0) 0 32), peer := fld (x 1) 52 12,
                      gang := fld (x 1) 47 5, role := fld (x 1) 40 7, prio := fld (x 1) 37 3, dlv := bitOf (x 1) 36,
                      spm := bitOf (x 1) 35, size := fld (x 1) 0 25,
                      loc := if fld (x 1) 32 3 = 4 then (kept.findSome? fun e => same e).getD 0 else BitVec.ofNat 64 (x 2),
                      deadline := BitVec.ofNat 32 (fld (x 3) 32 32), task := fld (x 3) 0 32 }
  let src : PortName := ⟨part, fld (x 3) 0 32, fld (x 1) 47 5, fld (x 1) 40 7⟩
  match fld (x 1) 32 3 with
  | 0 => none
  | 7 => some (.landing n.tag (fld (x 1) 0 22) (fld (x 2) 0 24) (fld (x 2) 32 24) (Fin.ofNat 256 (fld (x 2) 56 8)))
  | st => some (.notice n src st (BitVec.ofNat 64 (x 2)) ((kept.findSome? fun e => defer e).getD 0))
where
  /-- The producer's LOC of the same notice as it was kept. -/
  same (e : InSlot) : Option Word :=
    match e.e with
    | .notice k _ _ _ _ => if isSame k then some k.loc else none
    | _ => none
  /-- The end of its deferral. -/
  defer (e : InSlot) : Option Nat :=
    match e.e with
    | .notice k _ _ _ d => if isSame k then some d else none
    | _ => none
  isSame (k : Notice) : Bool :=
    k.block.toNat == fld (w.getD 0 0) 0 32 && k.peer == fld (w.getD 1 0) 52 12 && k.gang == fld (w.getD 1 0) 47 5 &&
      k.role == fld (w.getD 1 0) 40 7 && k.task == fld (w.getD 3 0) 0 32

/-- The inbound table of a frame, numbered from 0 in arrival order (R384): at most `nnot` notices, and the landing buffers. -/
def inboundOf (part : Fin 24) (nnot : Nat) (ws : List (List Nat)) (kept : List InSlot) : List InSlot :=
  let es := ws.filterMap fun w => inEntryOf part w kept
  let ns := es.zipIdx.filter fun x => match x.1 with | .notice _ _ _ _ _ => true | _ => false
  let cut := (ns.drop nnot).map Prod.snd
  ((es.zipIdx.filter fun x => !cut.contains x.2).map Prod.fst).mapIdx fun i e => ⟨i, i, e⟩

/-- A block record of a frame; what a frame has no place for is that of the record `k`. -/
def blockOf (i : Nat) (w : List Nat) (k : Option Block) : Block :=
  let x (i : Nat) : Nat := w.getD i 0
  { idx := i, tag := BitVec.ofNat 32 (fld (x 0) 32 32), gen := fld (x 0) 8 24, flt := bitOf (x 1) 57, rcnt := fld (x 1) 50 7,
    st := fld (x 1) 47 3, prio := fld (x 1) 44 3, spm := bitOf (x 1) 43, size := fld (x 1) 0 25, loc := BitVec.ofNat 64 (x 2),
    due := x 3, timeout := (k.map fun b => b.timeout).getD 0, reads := (k.map fun b => b.reads).getD 0, claims := [] }

/-- The block records of a restored member: a record goes on as messages and its timeout have left it (R85, R383), unless the frame was
edited there; at most `nblk` records that have been used. -/
def blocksOf (nblk : Nat) (ws written : List (List Nat)) (live : List Block) : List Block :=
  ((List.range 256).filterMap fun i =>
    let k := live.find? fun b => b.idx == i
    if ws[i]? = written[i]? then k
    else
      let b := blockOf i (ws.getD i []) k
      if b.gen = 0 ∧ b.st = 0 then none else some b).take nblk

/-- A wait's ticks are kept as what remains of them; an XSEL that has captured lands what it has (R343). -/
def Stage.freeze (now : Nat) : Stage → Option Stage
  | .pauseUntil t => some (.pauseUntil (t - now))
  | .publishing g w t => some (.publishing g w (t.map (· - now)))
  | .selecting _ | .queueFull => none
  | x => some x

def Stage.thaw (now : Nat) : Stage → Stage
  | .pauseUntil t => .pauseUntil (now + t)
  | .publishing g w t => .publishing g w (t.map (now + ·))
  | x => x

/-- What the root keeps of a saved core besides its frame (entry 14). -/
def Core.extra (now : Nat) (c : Core) : Extra :=
  let a := c.act
  { bun := a.bun, phase := a.phase, flights := a.flights, snap := a.snap, wins := a.wins, stage := a.stage.bind (Stage.freeze now),
    save := a.save, asyncQ := a.asyncQ,
    res := c.feeds.map fun f => (f.map fun x => x.res).getD [], replay := a.replay, railTrap := a.railTrap,
    broken := a.broken || a.epoch.isSome, copyNo := a.copyNo, port := c.port, blockWords := c.port.blockWords, arrived := a.arrived,
    ended := a.ended, copies := c.waitingCopies, noStop := a.noStop, dbgMet := a.dbgMet, toks := c.toks, tileOps := c.tile.ops }

/-- A PAUSE of a restored member lasts the ticks that its frame gives (R87, R354). -/
def Stage.lasting (t : Nat) : Stage → Stage
  | .pauseUntil _ => .pauseUntil t
  | x => x

/-- The context of a deep frame: its latches, stop state, snapshot, results and trap save area (R86, R91). Where the position or MASK was
edited so that the bundle is not the one that stopped, it is fetched anew, and DONE skips slots (entry 14). -/
def Core.deepCtx (f : FrameRead) (x : Extra) (now : Nat) (c : Core) (a : Ctx) : Ctx :=
  let stop := f 0x70C00 4
  let base := stop.getD 1 0
  let b := x.bun.map (c.bundleAt f 0x70000 now (x.snap.getD a.regs) x.wins)
  let same : Bool := match b with | some b => b.addr == a.pos && b.held | none => true
  let kept := a.inHandler
  { a with
    phase := if same then x.phase else .ready
    vcyc := if same then a.vcyc else base
    bun := if same then b else b.map fun b => { b with addr := a.pos, slots := [], snaps := [] }
    snap := if same then x.snap else none
    wins := if same then x.wins else []
    stage := if same then x.stage.map (Stage.lasting (stop.getD 2 0)) else none
    flights := flightsRead f 0x72C00 base x.flights
    replay := replaysRead f 0x72C00 x.flights.length x.replay
    hazard := if bitOf (stop.getD 3 0) 63 then none else some (stop.getD 3 0)
    save := if kept then
        some (c.saveAt f 0x77000 now a.regs (x.save.getD ⟨Vector.replicate 12 0, [], none, none, [], none⟩))
      else none }

/-- A core that restores a member: the frame's words `f`, with what was kept besides (R86). `nid` numbers its waiting copies. -/
def restoreCore (f : FrameRead) (id : Ctx) (x : Extra) (now nid : Nat) (c : Core) : Core :=
  let h := f 0 8
  let deep := fld (h.getD 0 0) 8 8 == 1
  let blocks := groups 4 (f 0xD000 1024)
  let a : Ctx := { id with
    pos := h.getD 1 0, loops := loopsOf (fld (h.getD 4 0) 0 3) (f 0x40 24), regs := regsOf f deep,
    sys := sysOf deep (x.asyncQ != []) (f 0x100 20), vcyc := (f 0x100 1).getD 0 0, frzt := (f 0x108 1).getD 0 0,
    flights := x.flights, asyncQ := x.asyncQ, broken := x.broken, railTrap := x.railTrap, arrived := x.arrived, replay := x.replay,
    noStop := x.noStop, dbgMet := x.dbgMet, copyNo := x.copyNo, ended := x.ended }
  let port : Port := { x.port with
    inb := inboundOf id.part (fld (h.getD 6 0) 0 10) (groups 4 (f 0x9000 2048)) x.port.arrival
    order := 512
    blocks := blocksOf (fld (h.getD 6 0) 32 9) blocks (groups 4 x.blockWords) x.port.blocks
    bucket := 16 * fld a.sys.chunk.toNat 0 13
    outstanding := 0
    keys := a.sys.pkey.toList.map (·.toNat) }
  let c1 : Core := { c with
    act := a, spm := [], spBad := [], regions := Vector.ofFn fun (i : Fin 64) => regionOf (f (0x800 + 32 * i.val) 4), gran := [],
    walks := [], tags := tagsOf (f 0x2000 512), fetchBuf := [], tile := tileOf f x.tileOps,
    handles := Vector.ofFn fun (i : Fin 256) => handleOf (f (0x1000 + 16 * i.val) 2),
    copies := copiesOf now nid x.copyNo (groups 2 (f 0x5000 (2 * fld (h.getD 5 0) 0 11))) x.copies,
    fences := [], pend := [], feeds := Vector.ofFn fun (i : Fin 8) => feedOfFrame (f (0x480 + 64 * i.val) 8) x.res[i], port := port,
    toks := x.toks, sendBuf := [] }
  if deep then { c1 with act := c1.deepCtx f x now a } else c1

/-- A core whose active slot is left: scrubbed to zero (R83, R111). Its translation cache stays (R267). -/
def Core.scrubbed (c : Core) : Core :=
  { c with act := .blank, spm := [], spBad := [], regions := Vector.replicate 64 .unused, gran := [], walks := [],
           pend := [], tags := [], fetchBuf := [], tile := .reset, handles := Vector.replicate 256 .reset, copies := [], fences := [],
           feeds := Vector.replicate 8 none, port := .reset, toks := [], sendBuf := [],
           regsx := { c.regsx with ctxBusy := c.regsx.ctxBusy.set 0 false } }

end Sys2Proof.Machine
end

