-- ==== Sys2Proof/Machine/Place.lean ====
section
/-! DEFINITION. The root's choice and placement of tasks: images, jigs, rank, fit, decisions, reservations, starts and
restores (R77, R78, R86, R104-R106, R111, R322-R328, R336-R338). -/

namespace Sys2Proof.Machine

/-! ### Images (R104-R106, R336) -/

/-- What the root's read of an image gives. -/
inductive ImageRead where
  | ok (i : Image)
  | wait
  | bad
  deriving DecidableEq, Repr

/-- The header's fixed fields and ranges (R104, R106). -/
def imageFields (w : List Nat) (t : Task) : Bool :=
  let x (i : Nat) : Nat := w.getD i 0
  x 0 == 0x5A484B49 * 2 ^ 32 + 2 ^ 16 && x 1 / 2 ^ 14 == 0 && !bitOf (x 1) 7 &&
    fld (x 1) 0 7 == t.gang && fld (x 1) 8 5 == (if t.span < 2 then 0 else t.span) &&
    x 2 / 2 ^ 22 == 0 && fld (x 3) 54 10 == 0 && fld (x 3) 22 10 == 0 && x 4 % 4096 == 0 && x 9 / 2 ^ 6 == 0 &&
    ((List.range 13).all fun i => x (11 + i) == 0) &&
    x 2 % 4 == 0 && decide (fld (x 3) 0 22 ≤ x 2) && decide (x 2 < fld (x 3) 0 22 + fld (x 3) 32 22)

/-- The image of a valid header; the text region is descriptor 63 (R105). -/
def imageOf (base : Word) (w : List Nat) (regions : List Region) (strips : List Nat) : Image :=
  let x (i : Nat) : Nat := w.getD i 0
  { base := base, jdef := bitOf (x 1) 13, entry := x 2, textSize := fld (x 3) 32 22, textSpa := fld (x 3) 0 22,
    textOff := BitVec.ofNat 64 (x 4), regions := regions, strips := strips }

/-- The text region (R105). Its SPAN code is 0, no swizzle, since the header gives none (entry 48, DESIGN CHOICE). -/
def Image.text (i : Image) : Region :=
  { gva := i.base + i.textOff, size := i.textSize, spa := i.textSpa, refill := false, span := 0, mode := 3 }

/-- The strips that a jig-request record names, none where it fails R336. -/
def jigOf (w : List Nat) (n : Nat) : Option (List Nat) :=
  let strips := (List.range n).map fun r => fld (w.getD (4 + r / 8) 0) (8 * (r % 8)) 8
  if w.getD 0 0 == 0x5A484A47 * 2 ^ 32 + n && w.getD 1 0 == 0 && w.getD 2 0 == 0 && w.getD 3 0 == 0 &&
      strips.all fun b => decide (b ≤ 4) || (decide (7 ≤ b) && decide (b ≤ 11)) || b == 0xFF then some strips
  else none

/-- The jig-request record of an image (R336). A JIGOFF that is no multiple of 128 makes the image invalid (entry 48, DESIGN CHOICE). -/
def readJig (pn : Fin 24) (base : Word) (w : List Nat) (t : Task) (s : State) : RootRead :=
  if bitOf (w.getD 1 0) 13 then .ok []
  else if w.getD 10 0 % 128 ≠ 0 then .bad
  else
    match rootWords pn (base + BitVec.ofNat 64 (w.getD 10 0)) 16 s with
    | .ok j => (match jigOf j t.gang with | some l => .ok l | none => .bad)
    | r => r

/-- The root reads and checks a task's image (R106). -/
def readImage (pn : Fin 24) (t : Task) (s : State) : ImageRead :=
  match rootWords pn t.image 32 s with
  | .bad => .bad
  | .wait => .wait
  | .ok w =>
    if !imageFields w t then .bad
    else
      match rootWords pn (t.image + 256) (4 * w.getD 9 0) s, readJig pn t.image w t s with
      | .ok r, .ok j =>
        let i := imageOf t.image w ((groups 4 r).map regionOf) j
        if (groups 4 r).all regionOk && i.text.size % 4096 == 0 && i.text.spa % 4096 == 0 &&
            decide (i.text.spa + i.text.size ≤ 0x300000) && regionsApart (i.text :: i.regions) then .ok i else .bad
      | .bad, _ | _, .bad => .bad
      | _, _ => .wait

/-! ### Fit (R324, R325, R337) -/

/-- Enabled slots of a cluster in ascending order: the fuses disable four of the hundred, whichever these are (R10, R21). -/
def enabledSlots (cl : Nat) : List Nat :=
  (List.range 4).foldl (fun l i => l.eraseIdx (Config.fuse cl i % l.length)) (List.range 100)

/-- Every member's active slot is EMPTY. -/
def slotsEmpty (s : State) (g : Gang) : Bool := g.members.all fun m => (s.coreAt (State.memberCore g m)).act.st == .empty

/-- The core's standby slot holds a member of a gang whose active slots are all EMPTY, which starts on the eighth tick (R78). -/
def promised (s : State) (c : Core) : Bool :=
  c.sby.st != .empty && match s.gang? c.sby.gid with | some g => g.standby && slotsEmpty s g | none => false

/-- Enabled slots that a placement may use: EMPTY active slots, or EMPTY standby slots. -/
def freeSlots (s : State) (cl : Nat) (standby : Bool) : List Nat :=
  (enabledSlots cl).filter fun i =>
    let c := s.coreAt ⟨Fin.ofNat 24 cl, Fin.ofNat 100 i⟩
    if standby then c.sby.st == .empty else c.act.st == .empty && !promised s c

/-- One pass of R337: each role takes the lowest free slot that it wants. -/
def bindPass (want : Nat → Nat → Bool) : List Nat → List Nat × List (Nat × Nat) → Option (List Nat × List (Nat × Nat))
  | [], x => some x
  | r :: rs, (free, done) =>
    match free.find? (want r) with
    | none => none
    | some i => bindPass want rs (free.erase i, done ++ [(r, i)])

/-- The binding of roles to slots (R337): roles with a strip first, then the others. -/
def bindRoles (free strips : List Nat) (n : Nat) : Option (List (Nat × Nat)) :=
  let st (r : Nat) : Nat := strips.getD r 0xFF
  ((bindPass (fun r i => stripOf i == st r) ((List.range n).filter fun r => st r != 0xFF) (free, [])).bind fun x =>
    bindPass (fun _ _ => true) ((List.range n).filter fun r => st r == 0xFF) x).map fun x =>
      x.2.sortBy fun a b => decide (a.1 ≤ b.1)

/-- A cluster offers its slots (R325); one that an APPLY takes away offers none (R433). -/
def offered (s : State) (pn : Fin 24) (cl : Nat) : Bool :=
  let p := s.part pn
  let y := s.plies[plyOf cl]
  p.active.cl.getLsbD cl && (p.state != 2 || p.target.cl.getLsbD cl) && !y.busy &&
    (y.st == .p0 || (y.st == .p1 && y.auto))

/-- A cluster with room: its number, its EMPTY slots and the binding. -/
abbrev Room := Nat × Nat × List (Nat × Nat)

def rooms (s : State) (pn : Fin 24) (t : Task) (standby : Bool) : List Room :=
  let strips := match t.kept with | some i => i.strips | none => []
  ((s.part pn).clusters.filter fun cl => offered s pn cl && (t.aff.isNone || t.aff == some cl)).filterMap fun cl =>
    let free := freeSlots s cl standby
    (bindRoles free strips t.gang).map fun b => (cl, free.length, b)

/-- Fewest EMPTY slots first, ties to the lowest cluster. -/
def byRoom (l : List Room) : List Room := l.sortBy fun a b => decide (a.2.1 ≤ b.2.1)

/-- Where a task goes: its clusters with their bindings in gang order, and whether into standby slots. -/
def placeFor (s : State) (pn : Fin 24) (t : Task) : Option (List Room × Bool) :=
  let act := byRoom (rooms s pn t false)
  if 1 < t.span then
    if t.span ≤ act.length then some ((act.take t.span).sortBy fun a b => decide (a.1 ≤ b.1), false) else none
  else
    match act with
    | x :: _ => some ([x], false)
    | [] =>
      if t.st = .saved then none
      else match byRoom (rooms s pn t true) with
        | x :: _ => some ([x], true)
        | [] => none

/-! ### Rank (R324) -/

/-- Effective priority. -/
def Task.eff (t : Task) (age now : Nat) : Nat :=
  if age = 0 then t.prio else Nat.min 7 (t.prio + (now - t.readyAt) / 2 ^ age)

/-- The ranked list of READY and SAVED tasks. -/
def ranked (p : Part) (now : Nat) : List Task :=
  (p.tasks.filter fun t => t.st == .ready || t.st == .saved).sortBy fun a b =>
    let x := a.eff p.age now
    let y := b.eff p.age now
    decide (y < x) || (x == y && (decide (a.readyAt < b.readyAt) || (a.readyAt == b.readyAt && decide (a.serial ≤ b.serial))))

/-- The tasks that a decision may place: none ranked below a reserving task (R327). -/
def eligible (p : Part) (now : Nat) : List Task :=
  let l := ranked p now
  l.takeWhile (fun t => !p.reserving.contains t.serial) ++ (l.find? fun t => p.reserving.contains t.serial).toList

/-! ### Placing (R77, R322, R326) -/

/-- Where a context stands before it is loaded: no role's name. -/
def Ctx.held (g : Gang) : Ctx := { Ctx.blank with st := .standby, part := g.part, task := g.task, gid := g.id, role := 127 }

/-- The fresh state of a member (R111, R145, R391). -/
def Ctx.fresh0 (t : Task) (i : Image) (g : Gang) (role cap : Nat) : Ctx :=
  let args : List Word := t.args ++ [t.gva, BitVec.ofNat 64 role, BitVec.ofNat 64 g.index]
  { Ctx.blank with
    st := .standby, part := g.part, task := t.serial, span := decide (1 < t.span), gang := g.index, role := role, gid := g.id,
    pos := i.entry, fresh := t.stamp,
    regs := { RegFile.zero with s := Vector.ofFn fun (n : Fin 64) => if n.val = 0 then 0 else args.getD (n.val - 1) 0 },
    sys := { SysRegs.fresh with srs := 0x9E3779B9#64 ^^^ BitVec.ofNat 64 (g.index * 256) ^^^ BitVec.ofNat 64 role,
                                pace := BitVec.ofNat 64 cap } }

/-- A ply in P1 with AUTO = 1 wakes for a placement (R19, R325). -/
def wakePly (cl : Nat) (s : State) : State :=
  let p := plyOf cl
  if s.plies[p].st = .p1 ∧ s.plies[p].busy = false then
    { s.drawn with plies := s.plies.set p { s.plies[p] with busy := true, goal := .p0 } }.at (s.time + 1 + s.choose 16)
      (.plyTransitionDone p)
  else s

/-- Changes the slot of a member: its active slot, or its standby slot. -/
def State.setSlot (s : State) (g : Gang) (m : Member) (c : Ctx) : State :=
  s.modAt (State.memberCore g m) fun k => if g.standby then { k with sby := c } else { k with act := c }

/-- Orders one gang of a fresh task onto its cores. -/
def placeGang (pn : Fin 24) (t : Task) (img : Image) (i : Nat) (r : Room) (standby : Bool) (s : State) : State :=
  let g : Gang := { id := s.newId, part := pn, task := t.serial, index := i, size := t.gang, cl := r.1, strips := img.strips,
                    members := r.2.2.map fun b => ⟨b.1, b.2, false, none, none⟩,
                    start := if standby then none else some (s.time + 2048), standby := standby, restoring := false,
                    saving := false, flushed := false, grace := none, bars := Vector.replicate 16 ⟨false, 0, false⟩, hits := [] }
  let s1 := wakePly r.1 ({ s.drawn with gangs := s.gangs ++ [g] }.modTask pn t.serial fun x =>
    { x with st := .placing, gangs := x.gangs ++ [g.id] })
  let s2 := g.members.foldl (fun s m => s.setSlot g m (Ctx.fresh0 t img g m.role (s.part pn).cap)) s1
  if standby then s2 else s2.at (s.time + 2048) (.gangStart g.id)

/-- A gang that is saved goes onto its new cores, and its restore begins (R86, R338). -/
def replaceGang (pn : Fin 24) (id : Nat) (r : Room) (s : State) : State :=
  let s1 := (s.modGang id fun g => { g with
      cl := r.1, restoring := true, start := none, standby := false, freed := false,
      members := g.members.map fun m => { m with sl := lookupD r.2.2 m.role m.sl } }).modTask pn
    (match s.gang? id with | some g => g.task | none => 0) fun x => { x with st := .placing }
  match s1.gang? id with
  | none => s1
  | some g => (g.members.foldl (fun s m => s.setSlot g m (Ctx.held g)) (wakePly r.1 s1)).later 1 (.restoreComplete id)

/-- Gangs of a task in the order of their index. -/
def State.gangsOf (s : State) (t : Task) : List Gang :=
  (t.gangs.filterMap s.gang?).sortBy fun a b => decide (a.index ≤ b.index)

/-- The frames and the barrier set of a saved gang are such as a restore accepts (R88, R350). -/
def gangFramesOk (s : State) (g : Gang) : Bool :=
  g.members.all fun m =>
    match m.frame with
    | none => m.done
    | some f => (frameOk g.part f s).isSome && (m.role != 0 || (barriersAt g.part f s).isSome)

/-- A frame of the gang meets a STATE 2 entry (R266). -/
def gangFramesWait (s : State) (g : Gang) : Bool :=
  g.members.any fun m => match m.frame with
    | some f => frameWaits g.part f s
    | none => false

/-- The frame that a record of an invalid frame names. -/
def Gang.firstFrame (g : Gang) : Word := (g.members.findSome? fun m => m.frame).getD 0

/-- Places a task. A SAVED task with an invalid frame is not placed (R88). -/
def placeTask (pn : Fin 24) (t : Task) (pl : List Room × Bool) (s : State) : State :=
  if t.st = .saved then
    let gs := s.gangsOf t
    match gs.find? fun g => !gangFramesOk s g with
    | some g => rootRecord pn 0x40 g.firstFrame 0 0 s.drawn
    | none => (gs.zip pl.1).foldl (fun s x => replaceGang pn x.1.id x.2 s) s.drawn
  else
    match t.kept with
    | none => s
    | some img => (pl.1.zipIdx).foldl (fun s x => placeGang pn t img x.2 x.1 pl.2 s) s

/-- The reservation ends when its task is placed or leaves the list (R327). -/
def dropReservation (pn : Fin 24) (s : State) : State :=
  s.modPart pn fun p => { p with reserving := p.reserving.filter fun n =>
    (p.tasks.any fun t => t.serial == n && (t.st == .ready || t.st == .saved)) }

/-- The walk of one decision (R106, R324). A task whose image or frames meet a STATE 2 entry is passed over, and walked again at later
decisions (R266). -/
def decideWalk (pn : Fin 24) : List Task → State → State
  | [], s => s
  | t :: ts, s =>
    let img : ImageRead := match t.kept with
      | some i => .ok i
      | none => if t.st = .saved then .wait else readImage pn t s
    match img with
    | .bad => decideWalk pn ts (finishTask pn t true (rootRecord pn 0x41 t.image 0 0 s.drawn))
    | .wait => decideWalk pn ts s.drawn
    | .ok i =>
      let t1 := { t with kept := some i }
      let s1 := s.modTask pn t.serial fun x => { x with kept := some i }
      match placeFor s1 pn t1 with
      | some pl =>
        if t1.st = .saved ∧ (s1.gangsOf t1).any (gangFramesWait s1) = true then decideWalk pn ts s1.drawn else placeTask pn t1 pl s1
      | none => decideWalk pn ts s1

/-- A partition holds a task that fits. -/
def hasFit (s : State) (pn : Fin 24) : Bool := (eligible (s.part pn) s.time).any fun t => (placeFor s pn t).isSome

/-- The partition that the next decision goes to, with the decisions it has then used of its turn. -/
def nextServed (s : State) : Nat → Nat → Nat → Option (Fin 24 × Nat)
  | 0, _, _ => none
  | n + 1, p, used =>
    let pn : Fin 24 := Fin.ofNat 24 p
    if used < (s.part pn).clusters.length ∧ hasFit s pn = true then some (pn, used + 1) else nextServed s n ((p + 1) % 24) 0

/-- One placement decision (R324). -/
def placementDecision (s : State) : State :=
  if s.time % 8 ≠ 0 ∨ s.isReady = false then s
  else
    match nextServed s 25 (s.round / 32 % 24) (s.round % 32) with
    | none => s
    | some (pn, used) =>
      dropReservation pn (decideWalk pn (eligible (s.part pn) s.time) { s with round := pn.val * 32 + used })

/-- PLACEMENT_DECISION (R324). -/
def execPlacementDecision (s : State) : Res := .next (settle s (placementDecision s))

/-! ### Starting (R78, R111, R326) -/

/-- A core at a fresh start. -/
def Core.freshStart (now : Nat) (i : Image) (a : Ctx) (c : Core) : Core :=
  { c.scrubbed with
    act := { a with st := .running },
    regions := (Vector.ofFn fun (n : Fin 64) =>
      if n.val = 63 then i.text else match i.regions[n.val]? with | some r => { r with refill := false } | none => .unused),
    port := { Port.reset with lastGrant := now } }

/-- The granule map's operation that a replay entry names goes on (R92). -/
def performReplay (n : Nat) (s : State) : State :=
  let i := n / 4
  match n % 4 with
  | 0 =>
    if (s.req? i).isSome then resendReq i s
    else
      match s.tenqs.find? fun q => q.id == i with
      | some q => if q.result.isSome then s.leg 12 q.part.val (.tenqResult i)
                  else s.leg (plyOf q.key.cl.val).val q.part.val (.tenqRequest i)
      | none => resendChunk i s
  | 1 => writeBack i s
  | 2 => s.modCore fun c => { c with tile := { c.tile with ops := c.tile.ops.map fun o =>
           if o.seq = i then { o with stopped := false } else o } }
  | _ => s

/-- Every replay entry of the context in view is performed again (R92). -/
def performReplays (s : State) : State := s.core.act.replay.foldl (fun s n => performReplay n s) s

/-- A restored member starts: what waited goes on from here (R86, R91). -/
def startRestored (s : State) : State :=
  let s1 := s.modCtx fun c => { c with
    st := .running, stage := c.stage.map (Stage.thaw s.time), bun := c.bun.map fun b => { b with tick := s.time } }
  let s2 := match s1.core.act.stage with
    | some (.pauseUntil t) => s1.at t (.pauseExpiry s1.key)
    | some (.publishing _ _ (some t)) => s1.at t (.pubTimeout s1.key)
    | _ => s1
  performReplays s2

/-- One member starts: a group switch, with the sweeper's visit; its core has its turn on this tick (R78, R111, R439). -/
def startMember (t : Task) (g : Gang) (m : Member) (s : State) : State :=
  let k := State.memberCore g m
  let s1 := (sweep k g.part s).focus k
  let a := if g.standby then s1.core.sby else s1.core.act
  if m.done then s1
  else
    let s2 :=
      if m.extra.isSome then startRestored s1
      else
        match t.kept with
        | none => s1
        | some i => s1.modCore fun c => (if g.standby then { c with sby := .blank } else c).freshStart s.time i a
    (deliverHeld 512 s2).joinTurn k

/-- Frame slots of the pool that a gang holds, those that its restore has given back not among them (R327). -/
def Gang.frames (g : Gang) : List Word := if g.freed then [] else g.members.filterMap fun m => m.frame

/-- GVA of frame slot `i` (R321). -/
def frameSlot (p : Part) (i : Nat) : Word := p.frbase + BitVec.ofNat 64 (0x80000 * i)

/-- The frame slots of a gang are free again. -/
def freeFrames (g : Gang) (s : State) : State :=
  s.modPart g.part fun p => { p with frames := p.frames.filter fun w => !(g.frames.contains w) }

/-- Phases that waited for the rails when the gang was saved wait again, from the tick on which their last member had arrived (R340). -/
def railsAgain (id : Nat) (s : State) : State :=
  match s.gang? id with
  | none => s
  | some g =>
    (List.finRange 16).foldl (fun s b =>
      if g.bars[b].xph && decide ((g.members.filter fun m => !m.done).length ≤ g.bars[b].count) then
        { s with railWait := s.railWait ++ [(g.id * 16 + b.val, lookupD g.waits b.val s.time)] }
      else s) (s.modGang id fun x => { x with waits := [] })

/-- The start tick of a gang has come (R78). A ply that has entered P1 since the placement, which R19 does not rule out, stays there: its
contexts are RUNNING and do nothing until it is in P0 (entry 95, DESIGN CHOICE). -/
def gangStart (id : Nat) (s : State) : State :=
  match s.gang? id with
  | none => s
  | some g =>
    match s.task? g.part g.task with
    | none => s
    | some t =>
      if g.start ≠ some s.time then s
      else if g.standby && !slotsEmpty s g then s.modGang id fun x => { x with start := none }
      else
        let home := s.key
        let s1 := (g.members.foldl (fun s m => startMember t g m s)
          (s.modTask g.part t.serial fun x => { x with st := .running })).focus home
        railsAgain id <| s1.modGang id fun x => { x with
          standby := false, freed := false, members := x.members.map fun m => { m with frame := none, extra := none } }

/-- GANG_START (R78, R111, R326). -/
def execGangStart (g : Nat) (s : State) : Res := .next (settle s (gangStart g s))

/-- A standby gang starts on the eighth tick after its last active slot became EMPTY (R78), which this sees a tick later. -/
def standbyDue (s : State) : State :=
  s.gangs.foldl (fun s g =>
    if g.standby && g.start.isNone && slotsEmpty s g then
      (s.modGang g.id fun x => { x with start := some (s.time + 7) }).at (s.time + 7) (.gangStart g.id)
    else s) s

/-! ### Restores (R86, R88) -/

/-- The requests, chunks and TENQs of replay entries belong to the core that the context is now on. -/
def moveReplays (k : CoreKey) (ids : List Nat) (s : State) : State :=
  let mine (i : Nat) : Bool := ids.contains (replayReq i)
  { s with reqs := s.reqs.map fun r => if mine r.id then { r with key := k } else r,
           chunks := s.chunks.map fun x => if mine x.id then { x with key := k } else x,
           tenqs := s.tenqs.map fun q => if mine q.id then { q with key := k } else q }

/-- Events that the core in view waits for after a restore: block timeouts and ends of deferrals. -/
def rearm (s : State) : State :=
  let s1 := s.modCore fun c => { c with port := { c.port with blocks := c.port.blocks.map fun b =>
    if (b.st = 2 ∨ b.st = 3) ∧ 0 < b.rcnt ∧ b.due ≤ s.time then { b with due := s.time + 1 } else b } }
  let s2 := s1.core.port.blocks.foldl (fun s b =>
    if b.st = 2 ∨ b.st = 3 then s.at b.due (.blockOverdue s.key (BitVec.ofNat 32 (b.gen * 256 + b.idx))) else s) s1
  s2.core.port.inb.foldl (fun s e =>
    match e.e with
    | .notice _ _ _ _ d => if s.time < d then s.at d (.deferralExpiry s.key (Fin.ofNat 512 e.idx)) else s
    | _ => s) s2

/-- The restore of a member ends: an acquire point at .stand (R86, R229). -/
def restoreMember (g : Gang) (m : Member) (s : State) : State :=
  let k := State.memberCore g m
  let span := match s.task? g.part g.task with | some t => decide (1 < t.span) | none => false
  let id : Ctx := { Ctx.blank with st := .standby, part := g.part, task := g.task, span := span, gang := g.index, role := m.role,
                                   gid := g.id }
  match m.frame, m.extra with
  | some f, some x =>
    let words (off n : Nat) : List Nat := (frameWords g.part f off n s).getD []
    rearm (((moveReplays k x.replay { s with draws := s.draws + 1024 }).focus k).modCore fun c =>
      let c1 := restoreCore words id x s.time s.newId c
      { c1 with act := c1.act.refresh ⟨.stand, s.stamp⟩ })
  | _, _ => s.modAt k fun c => { c with act := { id with st := .done, ended := true } }

/-- The gang goes back to memory with its frames (R77, R88). -/
def unplaceSaved (g : Gang) (s : State) : State :=
  let s1 := g.members.foldl (fun s m =>
    let k := State.memberCore g m
    let c := s.coreAt k
    (s.modGang g.id fun x => { x with members := x.members.map fun y =>
      if y.role = m.role ∧ g.restoring = false then { y with extra := y.extra.map fun e => { e with port := c.port, asyncQ := c.act.asyncQ } }
      else y }).modAt k Core.scrubbed) s
  s1.modGang g.id fun x => { x with restoring := false, start := none }

/-- All gangs of a span take one start tick, 8 ticks after the last restore (R326), which gives the frame slots back (R327, entry 46). -/
def restoredAll (t : Task) (s : State) : State :=
  if (s.gangsOf t).any fun g => g.restoring then s
  else
    (s.gangsOf t).foldl (fun s g =>
      ((freeFrames g s).modGang g.id fun x => { x with start := some (s.time + 8), freed := true }).at (s.time + 8) (.gangStart g.id)) s

/-- The frame slots that the restore of a gang gave back are all free still. -/
def State.canReclaim (s : State) (g : Gang) : Bool :=
  !g.freed || g.members.all fun m => match m.frame with
    | some f => !((s.part g.part).frames.contains f)
    | none => true

/-- A restored gang that leaves its cores before it starts keeps its frames in memory (R77). -/
def reclaimFrames (g : Gang) (s : State) : State :=
  if !g.freed then s
  else (s.modPart g.part fun p => { p with frames := p.frames ++ g.members.filterMap fun m => m.frame }).modGang g.id fun x =>
    { x with freed := false }

/-- A gang's restore ends, once its ply's clocks run (R19). -/
def restoreEnds (id : Nat) (s : State) : State :=
  match s.gang? id with
  | none => s
  | some g =>
    if !g.restoring then s
    else if s.plies[plyOf g.cl].st ≠ .p0 then s.at (s.time + 1) (.restoreComplete id)
    else
      match s.task? g.part g.task with
      | none => s
      | some t =>
        if gangFramesWait s g then s.drawn.at (s.time + 256) (.restoreComplete id)
        else if !gangFramesOk s g then
          rootRecord g.part 0x40 g.firstFrame 0 0
            (((s.gangsOf t).foldl (fun s x => unplaceSaved x s) s.drawn).modTask g.part t.serial fun x => { x with st := .saved })
        else
          let home := s.key
          let bars : List Barrier := match (g.members.find? fun m => m.role == 0).bind fun m => m.frame with
            | some f => (barriersAt g.part f s).getD []
            | none => []
          let s1 := (g.members.foldl (fun s m => restoreMember g m s) s.drawn).focus home
          let s2 := s1.modGang id fun x => { x with
            restoring := false,
            bars := Vector.ofFn fun (i : Fin 16) =>
              match bars[i.val]? with | some b => { b with xph := x.bars[i].xph } | none => x.bars[i] }
          restoredAll t s2

/-- RESTORE_COMPLETE (R86). -/
def execRestoreComplete (g : Nat) (s : State) : Res := .next (settle s (restoreEnds g s))

end Sys2Proof.Machine
end

