-- ==== Sys2Proof/Machine/Sched.lean ====
section
/-! DEFINITION. Pre-emption, saves, kills, ends of contexts and CTXCTL (R77-R85, R95, R96, R102, R103, R262, R298, R322,
R327, R334, R385). -/

namespace Sys2Proof.Machine

/-! ### Pre-emption requests (R80-R82) -/

/-- Changes the context of a member, wherever it stands. -/
def State.modMemberCtx (s : State) (g : Gang) (m : Member) (f : Ctx → Ctx) : State :=
  s.modAt (State.memberCore g m) fun c =>
    if c.act.gid = g.id ∧ c.act.st ≠ .empty then { c with act := f c.act }
    else if c.sby.gid = g.id ∧ c.sby.st ≠ .empty then { c with sby := f c.sby } else c

/-- PREQ is set; a FROZEN member is parked at once (R77, R80). -/
def Ctx.request (c : Ctx) : Ctx :=
  match c.st with
  | .running | .standby => { c with sys := { c.sys with cstat := c.sys.cstat ||| 2 } }
  | .frozen => { c with st := .parked, sys := { c.sys with cstat := c.sys.cstat ||| 2 } }
  | _ => c

/-- The request reaches a gang whose members run; a grace that is running keeps its length (R82, R98). -/
def requestGang (g : Gang) (s : State) : State :=
  let t := s.time + fld (s.part g.part).gracecfg.toNat 0 31
  let s1 := g.members.foldl (fun s m => s.modMemberCtx g m Ctx.request) s
  if g.grace.isSome then s1
  else (s1.modGang g.id fun x => { x with grace := some t }).at t (.graceExpiry g.id)

/-- The slots that a gang holds become EMPTY, and the gang is forgotten. -/
def dropGang (g : Gang) (s : State) : State :=
  let s1 := g.members.foldl (fun s m => s.modAt (State.memberCore g m) fun c =>
    if c.act.gid = g.id ∧ c.act.st ≠ .empty then c.scrubbed
    else if c.sby.gid = g.id ∧ c.sby.st ≠ .empty then { c with sby := .blank } else c) s
  let s2 := { freeFrames g s1 with
    gangs := (freeFrames g s1).gangs.filter fun x => x.id != g.id,
    railWait := (freeFrames g s1).railWait.filter fun w => w.1 / 16 != g.id }
  s2.modTask g.part g.task fun t => { t with gangs := t.gangs.filter (· != g.id) }

/-- Pre-emption of a whole task (R80, R322, R334). A restored task goes back to its frames; where other saves have taken their slots, the
request reaches its members in STANDBY (R327, entry 46). -/
def requestTask (pn : Fin 24) (serial : Nat) (s : State) : State :=
  match s.task? pn serial with
  | none => s
  | some t =>
    match t.st with
    | .running => (s.gangsOf t).foldl (fun s g => requestGang g s) s
    | .placing =>
      if (s.gangsOf t).any fun g => g.members.any fun m => m.extra.isSome then
        if (s.gangsOf t).all s.canReclaim then
          ((s.gangsOf t).foldl (fun s g => unplaceSaved g (reclaimFrames g s)) s).modTask pn serial fun x => { x with st := .saved }
        else (s.gangsOf t).foldl (fun s g => requestGang g s) s
      else
        ((s.gangsOf t).foldl (fun s g => dropGang g s) s).modTask pn serial fun x => { x with st := .ready, gangs := [] }
    | _ => s

/-- A member is parked on the tick on which the grace ends, at whatever point it has reached (R82). -/
def parkMember (g : Gang) (m : Member) (s : State) : State :=
  let c := s.memberCtx g m
  if c.st = .running ∧ c.phase ≠ .boundary then
    let s1 := s.focus (State.memberCore g m)
    (if c.phase = .issuing then s1.modCore Core.snapshot else s1).modCtx fun c => { c with st := .parked }
  else if c.st = .frozen then s.modMemberCtx g m fun c => { c with st := .parked }
  else s

/-- The grace of a gang ends. -/
def graceEnds (id : Nat) (s : State) : State :=
  match s.gang? id with
  | none => s
  | some g =>
    match g.grace with
    | none => s
    | some t => if s.time < t ∨ g.saving = true then s else (g.members.foldl (fun s m => parkMember g m s) s).focus s.key

/-- GRACE_EXPIRY (R82). -/
def execGraceExpiry (g : Nat) (s : State) : Res := .next (settle s (graceEnds g s))

/-! ### Saving (R81-R84, R262) -/

/-- A member that has stopped or ended; one that stopped at a boundary has no result in flight left but those that a fault holds back,
since its shallow frame has no place for them (R81, R87). -/
def Ctx.atRest (c : Ctx) : Bool :=
  c.st == .parked || c.st == .preempted || c.st == .done || (c.st == .running && c.phase == .boundary && c.flights.all c.heldFlight)

/-- Frame slots of the pool that are free (R321). -/
def freeSlotsOf (p : Part) : List Nat := (List.range (fld p.frcnt.toNat 0 8)).filter fun i =>
  !(p.frames.contains (frameSlot p i))

/-- Members of a gang that a save gives a frame: those that have not ended and have none. -/
def unsaved (s : State) (g : Gang) : List Member :=
  if g.saving then [] else g.members.filter fun m => m.extra.isNone && (s.memberCtx g m).st != .done

/-- Every member of every gang of the task has stopped, and the pool has the frame slots that all of them need (R81, R334). With too few
the members stay stopped until there are enough (entry 46, DESIGN CHOICE). -/
def saveDue (s : State) (g : Gang) : Bool :=
  match s.task? g.part g.task with
  | none => false
  | some t =>
    let rest (x : Gang) : Bool := x.members.all fun m => m.extra.isSome || (s.memberCtx x m).atRest
    t.st == .running && unsaved s g != [] && (s.gangsOf t).all rest &&
      decide (((s.gangsOf t).map fun x => (unsaved s x).length).sum ≤ (freeSlotsOf (s.part g.part)).length)

/-- Gives each member that is not DONE the lowest free slot (R327). -/
def assignFrames (s : State) (g : Gang) : List Member → List Nat → List Member
  | [], _ => []
  | m :: ms, free =>
    if (s.memberCtx g m).st = .done then { m with done := true } :: assignFrames s g ms free
    else
      match free with
      | [] => m :: assignFrames s g ms []
      | i :: rest => { m with frame := some (frameSlot (s.part g.part) i) } :: assignFrames s g ms rest

/-- The save of one gang begins: members stopped at a boundary are PREEMPTED, and pulls that faults hold back end (R77, R399). -/
def beginGang (g : Gang) (s : State) : State :=
  if unsaved s g = [] then s
  else
    let free := freeSlotsOf (s.part g.part)
    let need := (unsaved s g).length
    let s1 := (s.modGang g.id fun x => { x with saving := true, flushed := false, members := assignFrames s g x.members free }).modPart
      g.part fun p => { p with frames := p.frames ++ (free.take need).map (frameSlot p) }
    (g.members.foldl (fun s m =>
      let k := State.memberCore g m
      let s1 := s.modMember g m fun c => if c.st = .running then { c with st := .preempted } else c
      if (s1.coreAt k).act.gid = g.id then heldPullsEnd (s1.focus k) else s1) s1).focus s.key

/-- The save of a task begins, of all gangs of a span together (R334). -/
def beginSave (id : Nat) (s : State) : State :=
  match s.gang? id with
  | none => s
  | some g =>
    if !saveDue s g then s
    else
      match s.task? g.part g.task with
      | none => s
      | some t => (s.gangsOf t).foldl (fun s x => beginGang x s) s

/-- GANG_SAVE (R81). -/
def execGangSave (g : Nat) (s : State) : Res := .next (settle s (beginSave g s))

/-- Requests of a core that its context's replay entries do not name. -/
def liveRequests (s : State) (k : CoreKey) (c : Ctx) : Bool :=
  let held (i : Nat) : Bool := c.replay.contains (replayReq i)
  (s.reqs.any fun r => r.key == k && r.ctx == c.gid && !held r.id) || (s.chunks.any fun x => x.key == k && x.ctx == c.gid && !held x.id) ||
    (s.tenqs.any fun q => q.key == k && !held q.id)

/-- Steps 1-6 of R83 are done: what a fault has stopped stays as a replay entry. -/
def memberDrained (s : State) (k : CoreKey) : Bool :=
  let c := s.coreAt k
  let held (i : Nat) : Bool := c.act.replay.contains (replayReq i)
  c.copies.all (fun x => x.st == 0) &&
    (match c.tile.ops with | [] => true | o :: _ => o.stopped) &&
    ((List.finRange 8).all fun f => !streamWriteReady c f) &&
    c.port.pulls == [] && c.port.ops == [] &&
    (c.port.blocks.all fun b => !b.pinned || b.claims == []) && c.port.waits == [] &&
    (c.toks.all fun t => held t.id) && !c.heldBack && (c.act.flights.all fun f => match f.need with | some n => held n | none => true) &&
    !liveRequests s k c.act

/-- An arrival of the gang that is not yet counted (R350). -/
def arrivalsOut (s : State) (id : Nat) : Bool :=
  (s.cal.any fun e => match e.2 with | .barrierArrival g _ _ _ => g == id | _ => false) ||
    s.agenda.any fun e => match e with | .barrierArrival g _ _ _ => g == id | _ => false

/-- Granules that step 7 of R83 writes back: DIRTY ones, and of a wb region with REFILL = 0 every one (R262). -/
def Core.flushGrans (c : Core) : List Nat :=
  (List.range 768).filter fun g =>
    match c.regionAt (4096 * g) with
    | some (_, r) => (r.mode == 2 && !r.refill) || ((r.mode == 1 || r.mode == 2) && c.granSt g == .dirty)
    | none => false

/-- Members that have a frame to write, with their cores. -/
def savedMembers (g : Gang) : List (CoreKey × Member) :=
  (g.members.filter fun m => m.frame.isSome).map fun m => (State.memberCore g m, m)

/-- A write-back of the core is under way, or waits for MAPINVC (R263). -/
def flushing (c : Core) : Bool :=
  (c.gran.any fun g => match g.2 with | .writing _ _ => c.granSt g.1 == g.2 | _ => false) ||
    c.act.replay.any fun n => n % 4 == 1

/-- The beats that a member saved inside its phase has sent and not injected: the phase is broken, and they are never injected (R343). Those
of a phase that it had closed are injected on their ticks (entry 90). -/
def brokenBeats (s : State) (c : Core) : List RailBeat :=
  (c.sendBuf.filterMap fun i => s.rails.find? fun b => b.id == i).filter fun b => c.act.epoch == some b.epoch

/-- Each of them traps with its TK. -/
def brokenSends (s : State) (k : CoreKey) (c : Core) : List Word :=
  (brokenBeats s c).map fun b => railInfo 2 (stripOf k.sl.val) b.west ((b.tick - b.epoch) % 2 ^ 14)

/-- Writes the frame of one member; what the layout leaves out stays with the root (R87, R350). -/
def saveMember (g : Gang) (km : CoreKey × Member) (s : State) : State :=
  match km.2.frame with
  | none => s
  | some f =>
    let s0 := sweep km.1 g.part s
    let c := s0.coreAt km.1
    let deep := c.act.st == .parked
    let s1 := putBytes g.part f (frameBytes s0 km.1 c deep) s0.drawn
    let s2 := if km.2.role = 0 then
        putBytes g.part (f + 0x7E000) (wordsBytes (g.bars.toList.flatMap Barrier.words)) s1
      else s1
    let x := { c.extra s.time with railTrap := c.act.railTrap ++ brokenSends s km.1 c }
    ({ s2 with rails := s2.rails.filter fun b => b.entered || !((brokenBeats s0 c).any (·.id == b.id)) } : State).modGang g.id fun y =>
      { y with members := y.members.map fun (m : Member) => if m.role = km.2.role then { m with extra := some x } else m }

/-- The slots of a saved gang become EMPTY (R77, R257). -/
def clearSaved (g : Gang) (s : State) : State :=
  let s1 := g.members.foldl (fun s m => s.modAt (State.memberCore g m) fun c =>
    { c.scrubbed with regsx := { c.scrubbed.regsx with ctxFrm := c.regsx.ctxFrm.set 0 (m.frame.getD c.regsx.ctxFrm[0]) } }) s
  let waits := (s1.railWait.filter fun w => w.1 / 16 == g.id).map fun w => (w.1 % 16, w.2)
  let s2 := ({ s1 with railWait := s1.railWait.filter fun w => w.1 / 16 != g.id } : State).modGang g.id fun x =>
    { x with waits := waits, saving := false, flushed := false, grace := none, start := none }
  match s2.task? g.part g.task with
  | none => s2
  | some t =>
    if (s2.gangsOf t).all fun x => !x.saving && x.members.all fun m => m.extra.isSome || m.done then
      s2.modTask g.part g.task fun t => { t with st := .saved }
    else s2

/-- The write-backs of a save begin once every member has drained. -/
def startFlush (g : Gang) (s : State) : State :=
  let s1 := ((savedMembers g).foldl (fun s km =>
    let s1 := s.focus km.1
    s1.core.flushGrans.foldl (fun s i => writeBack i s) s1) s).focus s.key
  s1.modGang g.id fun x => { x with flushed := true }

/-- A save goes on: drains, write-backs, then the frames (R83). -/
def saveGoesOn (id : Nat) (s : State) : State :=
  match s.gang? id with
  | none => s
  | some g =>
    let ms := savedMembers g
    if !g.saving then s
    else if !g.flushed then
      if (ms.all fun km => memberDrained s km.1) && !arrivalsOut s id then startFlush g s else s
    else if (ms.any fun km => flushing (s.coreAt km.1)) || !(ms.all fun km => memberDrained s km.1) then s
    else if ms.all fun km => writable g.part (km.2.frame.getD 0) 0x7E200 s then
      match (ms.foldl (fun s km => saveMember g km s) s.drawn).gang? id with
      | some g1 => clearSaved g1 (ms.foldl (fun s km => saveMember g km s) s.drawn)
      | none => s
    else s.drawn

/-- SAVE_COMPLETE (R83, R87). -/
def execSaveComplete (g : Nat) (s : State) : Res := .next (settle s (saveGoesOn g s))

/-- The members of the gang that have a frame, once its save can go on in this tick. -/
def saveReady (s : State) (g : Gang) : Bool :=
  let ms := savedMembers g
  g.saving && (if g.flushed then !(ms.any fun km => flushing (s.coreAt km.1)) && (ms.all fun km => memberDrained s km.1)
               else (ms.all fun km => memberDrained s km.1) && !arrivalsOut s g.id)

/-! ### The end of a context (R102, R103) -/

/-- A block that keeps its producer from ending (R383). -/
def Block.holds (b : Block) : Bool := b.st == 1 || b.st == 2 || b.st == 3

/-- Steps 2-6 of R83 at an END: the time-sorted buffer has released everything. -/
def endDrained (s : State) (k : CoreKey) : Bool :=
  let c := s.coreAt k
  c.act.flights == [] && c.copies == [] && c.tile.ops == [] && c.act.replay == [] && c.port.pulls == [] && c.port.ops == [] &&
    c.toks == [] && !c.heldBack && ((List.finRange 8).all fun f => match c.feeds[f] with | some fd => !fd.pat.out || fd.res == [] | none => true) &&
    !(c.port.blocks.any Block.holds) && c.port.waits == [] && !liveRequests s k c.act

/-- The context in view is DONE (R77), after a last tick RUNNING and the sweeper's visit (R438, R439); barriers at which it has not arrived
are judged again (R347). -/
def contextDone (s : State) : State :=
  let s1 := sweep s.key s.core.act.part (s.count 0 1)
  memberDone s1.core.act.gid s1.core.act.role (s1.modCtx fun c => { c with st := .done })

/-- Every granule that is DIRTY is written back, and what peers write meanwhile; then the context is DONE (R262). -/
def endFlush (s : State) : State :=
  if s.core.dirtyGrans 64 = [] then contextDone s else (s.core.dirtyGrans 64).foldl (fun s g => writeBack g s) s

/-- The END drain goes on: drained, then written back, then DONE on the tick of the last acknowledgement (R103, R262). -/
def endDrain (s : State) : State :=
  let c := s.core
  if c.act.st ≠ .running then s
  else
    match c.act.phase with
    | .drain => if endDrained s s.key then endFlush (s.modCtx fun a => { a with phase := .drained }) else s
    | .drained => if flushing c || c.toks != [] || c.act.replay != [] then s else endFlush s
    | _ => s

/-- END_DRAIN_COMPLETE (R103). -/
def execEndDrainComplete (k : CoreKey) (s : State) : Res := .next (settle s (endDrain (s.focus k)))

/-- Contexts that have issued END decline their notices (R385). -/
def declineEnded (s : State) : State :=
  ((s.cores.filter fun e => e.2.act.ended && ((e.2.port.inb.any fun x => x.state == 1 || x.state == 2) ||
    (s.part e.2.act.part).hold.any fun h => e.2.act.named h.2.1)).foldl (fun s e => declineAll (s.focus e.1)) s).focus s.key

/-! ### KILL (R77, R96) -/

/-- An abandon for each PULLING notice (R383). -/
def abandonPulls (s : State) : State :=
  s.core.port.pulls.foldl (fun s q =>
    match s.core.port.notice? q.idx with
    | some (n, src) => sendAbandon src n q.id s
    | none => s) s

/-- The bytes of a write-back that is on its way are those of the granule as the kill finds it (R260, entry 22). -/
def Req.fixed (c : Core) (r : Req) : Req :=
  match r.kind with
  | .fillBack g => if r.applied then r else { r with kind := .store, data := ofBytes (c.spRead (4096 * g + r.gva.toNat % 4096) r.size) }
  | _ => r

/-- A member is KILLed: its stopped copies are aborted (R298), its state is discarded, and the slot stays with the gang until the gang is
gone. -/
def killMember (g : Gang) (m : Member) (s : State) : State :=
  let k := State.memberCore g m
  let c0 := s.coreAt k
  if c0.act.gid ≠ g.id ∨ c0.act.st = .empty then s
  else
    let held (i : Nat) : Bool := c0.act.replay.contains (replayReq i)
    let s0 := (c0.copies.filter fun x => x.st == 3).foldl (fun s x => abortCopy x s) (s.focus k)
    let s1 := declineAll (abandonPulls s0)
    { s1 with reqs := (s1.reqs.filter fun (r : Req) => !held r.id).map fun (r : Req) => if r.key = k then r.fixed s1.core else r,
              tenqs := s1.tenqs.filter fun q => !held q.id,
              chunks := s1.chunks.filter fun x => !(x.key == k && x.ctx == g.id),
              rails := s1.rails.filter fun b => b.entered || !(c0.sendBuf.contains b.id) }.modCore fun c =>
      { c.scrubbed with
        toks := c.toks.filter fun t => !held t.id
        act := { Ctx.blank with st := .done, part := g.part, task := c0.act.task, span := c0.act.span, gang := g.index,
                                role := m.role, gid := g.id, ended := true } }

/-- The notices of a member that is KILLed while it waits in STANDBY, or in memory, are declined (R385). -/
def declineMember (g : Gang) (s : State) (m : Member) : State :=
  let k := State.memberCore g m
  if (s.coreAt k).act.gid = g.id ∧ (s.coreAt k).act.st ≠ .empty then declineAll (s.focus k)
  else
    match m.extra with
    | some x => x.port.inb.foldl declineSlot s
    | none => s

/-- As `declineMember`, for every member of a gang. -/
def declineGang (s : State) (g : Gang) : State := (g.members.foldl (declineMember g) s).focus s.key

/-- KILL of a whole task (R96, R322). -/
def killTask (pn : Fin 24) (serial : Nat) (s : State) : State :=
  match s.task? pn serial with
  | none => s
  | some t =>
    match t.st with
    | .placing => finishTask pn t true ((s.gangsOf t).foldl (fun s g => dropGang g (declineGang s g)) s)
    | .running =>
      let s1 := ((s.gangsOf t).foldl (fun s g =>
        let s0 := (g.members.filter fun m => m.extra.isSome).foldl (declineMember g) s
        freeFrames g ((g.members.foldl (fun s m => killMember g m s) s0).modGang g.id fun x =>
          { x with saving := false, grace := none,
                   members := x.members.map fun (m : Member) => { m with done := m.extra.isSome, frame := none, extra := none } })) s).focus s.key
      s1.modTask pn serial fun x => { x with aborted := true }
    | _ => s

/-! ### Ends of gangs and tasks (R77, R322, R323) -/

/-- Every member is DONE and every write of its members is acknowledged. -/
def gangOver (s : State) (g : Gang) : Bool :=
  g.members.all (fun m =>
    let k := State.memberCore g m
    let c := s.coreAt k
    (m.done && c.act.gid != g.id) ||
      (c.act.gid == g.id && c.act.st == .done && c.toks == [] && !(s.tenqs.any fun q => q.key == k))) &&
  !(s.reqs.any fun r => r.ctx == g.id)

/-- The slots of gangs that have ended become EMPTY, and tasks whose gangs have all ended complete. -/
def retireGangs (s : State) : State :=
  s.gangs.foldl (fun s g =>
    match s.task? g.part g.task with
    | none => s
    | some t =>
      if t.st == .running && !g.saving && gangOver s g then
        let s1 := dropGang g s
        match s1.task? g.part g.task with
        | some t1 => if t1.gangs = [] then s1.soon (.taskComplete g.part g.task) else s1
        | none => s1
      else s) s

/-- TASK_COMPLETE (R323). -/
def execTaskComplete (p : Fin 24) (serial : Nat) (s : State) : Res :=
  .next (settle s (match s.task? p serial with
    | none => s
    | some t => if t.st = .running ∧ t.gangs = [] then finishTask p t t.aborted s else s))

/-! ### CTXCTL (R96) -/

/-- The slot of a core that CTXCTL names. -/
def Core.slot (c : Core) (x : Bool) : Ctx := if x then c.sby else c.act

/-- A refused command sets ERR. -/
def ctxErr (k : CoreKey) (x : Bool) (s : State) : State :=
  s.modAt k fun c => { c with regsx := { c.regsx with
    ctxErr := c.regsx.ctxErr.set (b2n x) true (by unfold b2n; split <;> omega) } }

/-- RESUME of a context slot (R77, R92, R96): FROZEN only. -/
def ctxResume (k : CoreKey) (x : Bool) (s : State) : State :=
  if ((s.coreAt k).slot x).st = .frozen ∧ x = false then
    performReplays ((s.focus k).modCtx fun c => { c with st := .running })
  else ctxErr k x s

/-- PARK (R77, R96): FROZEN only; the frame is written with the save of the gang (R334), and until then the command is in progress. -/
def ctxPark (k : CoreKey) (x : Bool) (s : State) : State :=
  if ((s.coreAt k).slot x).st = .frozen ∧ x = false then
    s.modAt k fun c => { c with act := { c.act with st := .parked }, regsx := { c.regsx with ctxBusy := c.regsx.ctxBusy.set 0 true } }
  else ctxErr k x s

/-- PREEMPT (R80, R96): the whole task of the context. -/
def ctxPreempt (k : CoreKey) (x : Bool) (s : State) : State :=
  let c := (s.coreAt k).slot x
  if c.st = .empty then ctxErr k x s else requestTask c.part c.task s

/-- KILL (R77, R96): the whole task of the context. -/
def ctxKill (k : CoreKey) (x : Bool) (s : State) : State :=
  let c := (s.coreAt k).slot x
  if c.st = .empty then ctxErr k x s else killTask c.part c.task s

/-- CTXCTL_RESUME (R96). -/
def execCtxctlResume (k : CoreKey) (x : Bool) (s : State) : Res := .next (settle s (ctxResume k x s))

/-- CTXCTL_PARK (R96). -/
def execCtxctlPark (k : CoreKey) (x : Bool) (s : State) : Res := .next (settle s (ctxPark k x s))

/-- CTXCTL_PREEMPT (R96). -/
def execCtxctlPreempt (k : CoreKey) (x : Bool) (s : State) : Res := .next (settle s (ctxPreempt k x s))

/-- CTXCTL_KILL (R96). -/
def execCtxctlKill (k : CoreKey) (x : Bool) (s : State) : Res := .next (settle s (ctxKill k x s))

/-- A write of CTXCTL (R96): ERR is cleared first, then the command, if any, is taken; one written while BUSY is refused. -/
def ctxctlWrite (k : CoreKey) (x : Bool) (val : Word) (s : State) : State :=
  let s1 := if val.getLsbD 4 then
      s.modAt k fun c => { c with regsx := { c.regsx with
        ctxErr := c.regsx.ctxErr.set (b2n x) false (by unfold b2n; split <;> omega) } }
    else s
  if fld val.toNat 0 4 ≠ 0 ∧ (s.coreAt k).regsx.ctxBusy[if x then (1 : Fin 2) else 0] = true then ctxErr k x s1
  else
    match fld val.toNat 0 4 with
    | 0 => s1
    | 1 => ctxResume k x s1
    | 2 => ctxPark k x s1
    | 3 => ctxPreempt k x s1
    | 4 => ctxKill k x s1
    | _ => ctxErr k x s1

/-! ### Reservations (R327) -/

/-- A running gang task of lower base PRIO that is not already asked to leave, with its gang. -/
def victimsOf (s : State) (pn : Fin 24) (t : Task) (cl : Nat) : List (Task × Gang) :=
  (((s.part pn).tasks.filter fun v => v.st == .running && decide (v.span < 2) && decide (v.prio < t.prio)).filterMap fun v =>
    match s.gangsOf v with
    | [g] => if g.cl = cl ∧ g.grace.isNone then some (v, g) else none
    | _ => none).sortBy fun a b =>
      decide (a.1.prio < b.1.prio) || (a.1.prio == b.1.prio &&
        (decide (b.2.start.getD 0 < a.2.start.getD 0) ||
          (a.2.start.getD 0 == b.2.start.getD 0 && decide (b.1.serial ≤ a.1.serial))))

/-- Takes victims until the cluster has room for the gang. -/
def takeVictims (need : Nat) : List (Task × Gang) → List (Task × Gang) → Option (List (Task × Gang))
  | [], acc => if need = 0 then some acc else none
  | v :: vs, acc => if need = 0 then some acc else takeVictims (need - v.2.members.length) vs (acc ++ [v])

/-- Victims in a cluster that the task may use, with the number of their cores. -/
def victimsIn (s : State) (pn : Fin 24) (t : Task) (cl : Nat) : Option (Nat × List (Task × Gang)) :=
  (takeVictims (t.gang - (freeSlots s cl false).length) (victimsOf s pn t cl) []).map fun vs =>
    ((vs.map fun v => v.2.members.length).sum, vs)

/-- Pre-empts for a reserving gang task. -/
def preemptFor (pn : Fin 24) (t : Task) (s : State) : State :=
  let cls := (s.part pn).clusters.filter fun cl => offered s pn cl && (t.aff.isNone || t.aff == some cl)
  let best := (cls.filterMap fun cl => victimsIn s pn t cl).foldl
    (fun (m : Option (Nat × List (Task × Gang))) x => match m with | some y => if x.1 < y.1 then some x else some y | none => some x) none
  match best with
  | none => s
  | some (n, vs) =>
    if n ≤ (freeSlotsOf (s.part pn)).length then vs.foldl (fun s v => requestTask pn v.1.serial s) s else s

/-- RESERVATION (R327): the task that ranks first without fitting becomes reserving. -/
def reserve (pn : Fin 24) (s : State) : State :=
  match ranked (s.part pn) s.time with
  | [] => s
  | t :: _ =>
    if t.serial = (s.part pn).topTask ∧ (s.part pn).topSince + 2 ^ (s.part pn).resv ≤ s.time ∧
        (s.part pn).reserving.contains t.serial = false then
      let s1 := s.modPart pn fun p => { p with reserving := p.reserving ++ [t.serial] }
      if (s.part pn).pen && decide (t.span < 2) then preemptFor pn t s1 else s1
    else s

def execReservation (p : Fin 24) (s : State) : Res := .next (settle s (reserve p s))

/-- The last tick that does not count for the task that ranks first (R327): the last one on which it fitted or another ranked first. -/
def Part.countsFrom (p : Part) (now serial : Nat) (fits : Bool) : Nat :=
  if fits then now else if serial = p.topTask then p.topSince else now - 1

/-- The rank and the fit are judged on every tick: the count starts again when another task ranks first or the task fits. -/
def judgeTop (pn : Fin 24) (s : State) : State :=
  let p := s.part pn
  match ranked p s.time with
  | [] => s.modPart pn fun p => { p with topTask := 0, topSince := s.time }
  | t :: _ =>
    let fits := (placeFor s pn t).isSome
    let since := p.countsFrom s.time t.serial fits
    let s1 := s.modPart pn fun p => { p with topTask := t.serial, topSince := since }
    if fits = false ∧ since + 2 ^ p.resv ≤ s.time ∧ p.reserving.contains t.serial = false then s1.soon (.reservation pn) else s1

end Sys2Proof.Machine
end

