-- ==== Sys2Proof/Machine/Power.lean ====
section
/-! DEFINITION. Bring-up, the power states of the plies, the power share, the activity forecast and the patrol scrub
(R8-R29, R329, R408, R435). -/

namespace Sys2Proof.Machine

/-! ### Ply power states (R16-R20) -/

/-- Codes of the power states. -/
def PState.code : PState → Nat
  | .p0 => 0 | .p1 => 1 | .p2 => 2 | .p3 => 3

/-- The next state on the way to `goal` (R19): P2 goes up to P0 first. -/
def PState.toward (st goal : PState) : PState :=
  match st, goal with
  | .p0, .p0 => .p0
  | .p0, _ => .p1
  | .p1, .p0 => .p0
  | .p1, .p1 => .p1
  | .p1, _ => .p2
  | .p2, .p2 => .p2
  | .p2, .p3 => .p3
  | .p2, _ => .p0
  | .p3, .p3 => .p3
  | .p3, _ => .p2

/-- Clusters of a ply (R10). -/
def plyClusters (p : Fin 12) : List Nat := [2 * p.val, 2 * p.val + 1]

/-- Cores of a ply that the state holds. -/
def State.plyCores (s : State) (p : Fin 12) : List (CoreKey × Core) := s.cores.filter fun e => plyOf e.1.cl.val == p

/-- No engine of the core holds work. -/
def Core.engineIdle (c : Core) : Bool :=
  c.copies == [] && c.tile.ops == [] && c.port.pulls == [] && c.port.ops == [] && c.toks == [] && c.walks == [] &&
    !(c.gran.any fun g => match g.2 with | .writing _ _ | .filling _ _ => c.granSt g.1 == g.2 | _ => false) &&
    (c.feeds.toList.all fun f => match f with | some x => x.res == [] | none => true)

/-- A request or a chunk of a core of the ply, or of another core for its scratchpad, is under way; what waits as a replay entry is no
work. -/
def plyTraffic (s : State) (p : Fin 12) : Bool :=
  (s.reqs.any fun r => !r.held && (plyOf r.key.cl.val == p || plyOf r.pad.cl.val == p)) ||
    s.chunks.any fun x => !x.held && plyOf x.key.cl.val == p

/-- No RUNNING context on the ply, and no engine holds work. A gang that is placed and has not started counts as no work, so that the ply may
enter P1 before the start tick (entry 95, DESIGN CHOICE). -/
def plyIdle (s : State) (p : Fin 12) : Bool :=
  ((s.plyCores p).all fun e => e.2.act.st != .running && e.2.engineIdle) && !plyTraffic s p

/-- Both clusters belong to one partition or to none. -/
def oneOwner (s : State) (p : Fin 12) : Bool :=
  s.parts.toList.all fun q => q.active.cl.getLsbD (2 * p.val) == q.active.cl.getLsbD (2 * p.val + 1)

/-- Every core slot of the ply is EMPTY, every handle FREE, and no block or notice is held. -/
def plyEmpty (s : State) (p : Fin 12) : Bool :=
  (s.plyCores p).all fun e => e.2.act.st == .empty && e.2.sby.st == .empty &&
    (e.2.handles.toList.all fun h => h.st == .free) && e.2.port.inb == [] && !(e.2.port.blocks.any Block.pinned)

/-- Neither cluster nor any slice of the ply is assigned (R19, R425). -/
def plyUnowned (s : State) (p : Fin 12) : Bool :=
  s.parts.toList.all fun q => (plyClusters p).all fun c =>
    !(q.active.cl.getLsbD c) && !(q.active.slc.getLsbD c)

/-- Entry condition of one step of R19. -/
def plyMay (s : State) (p : Fin 12) (st next : PState) : Bool :=
  match st, next with
  | .p0, .p1 => plyIdle s p
  | .p1, .p2 => plyEmpty s p
  | .p2, .p3 => plyUnowned s p
  | _, _ => true

/-- Every state on the way from `st` to `goal` meets its entry condition now; three steps lead anywhere (R19). -/
def plyPath (s : State) (p : Fin 12) (goal : PState) : Nat → PState → Bool
  | 0, _ => true
  | n + 1, st => st == goal || (plyMay s p st (st.toward goal) && plyPath s p goal n (st.toward goal))

/-- The longest time of one step (R19). -/
def plyLongest (st next : PState) : Nat :=
  match st, next with
  | .p0, _ => 32
  | .p1, .p0 => 16
  | .p1, _ => 2000
  | .p2, .p3 => 200000
  | .p2, _ => 40000
  | .p3, _ => 300000

def State.modPly (s : State) (p : Fin 12) (f : Ply → Ply) : State := { s with plies := s.plies.set p (f s.plies[p]) }

/-- One step begins: it ends within its longest time. A ply that leaves P3 asks for a resynchronisation (R20, R370). -/
def plyBegin (p : Fin 12) (goal : PState) (s : State) : State :=
  let st := s.plies[p].st
  let s1 := s.drawn.modPly p fun y => { y with busy := true, goal := goal }
  let s2 := if st = .p3 then
      { s1.modPly p fun y => { y with stale := true } with clr := { s1.clr with resyncReq := s1.clr.resyncReq ++ [p.val] } }
    else s1
  s2.at (s.time + 1 + s.choose (plyLongest st (st.toward goal))) (.plyTransitionDone p)

/-- PLYCTL is written with TARGET `goal` (R19). The conditions of every step are judged at the write: a TARGET that does not meet them
changes nothing but ERR. Each is judged again on arrival at the state before it (entry 47). -/
def plyRequest (p : Fin 12) (goal : PState) (s : State) : State :=
  let y := s.plies[p]
  if y.busy then s.modPly p fun y => { y with err := true }
  else if y.st = goal then s.modPly p fun y => { y with target := goal }
  else if plyPath s p goal 3 y.st then plyBegin p goal (s.modPly p fun y => { y with target := goal })
  else s.modPly p fun y => { y with err := true }

/-- PLYCTL_TARGET_P0 (R19). -/
def execPlyctlTargetP0 (p : Fin 12) (s : State) : Res := .next (settle s (plyRequest p .p0 s))

/-- PLYCTL_TARGET_P1 (R19). -/
def execPlyctlTargetP1 (p : Fin 12) (s : State) : Res := .next (settle s (plyRequest p .p1 s))

/-- PLYCTL_TARGET_P2 (R19). -/
def execPlyctlTargetP2 (p : Fin 12) (s : State) : Res := .next (settle s (plyRequest p .p2 s))

/-- PLYCTL_TARGET_P3 (R19). -/
def execPlyctlTargetP3 (p : Fin 12) (s : State) : Res := .next (settle s (plyRequest p .p3 s))

/-- A core that was powered off: scratchpads, m files, PS and buffer tables are zero (R16, R19). -/
def Core.poweredOn (c : Core) : Core := { c.scrubbed with sby := .blank, tlb := [], walks := [] }

/-- What entering a state does (R16, R19): P0 from P2 finds the cores zero, and the slices of a ply that enters P3 have been flushed, but for
marked lines, which stay with their marks (R28).
The mirror stops listening at the next frame boundary (R369). -/
def plyEnter (p : Fin 12) (from_ next : PState) (s : State) : State :=
  let s1 := s.modPly p fun y => { y with st := next, idle := 0 }
  match from_, next with
  | .p2, .p0 =>
    let on (k : CoreKey) (c : Core) : Core := if plyOf k.cl.val = p then c.poweredOn else c
    { s1 with core := on s1.key s1.core, others := s1.others.map fun e => (e.1, on e.1 e.2) }
  | .p2, .p3 =>
    let here (l : Nat × Line) : Bool := slicePly l.2.home == p.val
    let s2 := s1.evictAll fun n => here (n, lookupD s1.lines n .fresh)
    { s2 with lines := s2.lines.filter fun l => !here l || l.2.bad.isSome }
  | _, _ => s1

/-- A step ends. A ply leaves P3 only once its mirror is in place (R20); the next step must meet its own condition, judged now
(entry 47). -/
def plyDone (p : Fin 12) (s : State) : State :=
  let y := s.plies[p]
  if !y.busy then s
  else
    let next := y.st.toward y.goal
    if y.st = .p3 ∧ y.stale = true then s.at (s.time + 1) (.plyTransitionDone p)
    else
      let s1 := plyEnter p y.st next s
      if next = y.goal then s1.modPly p fun y => { y with busy := false }
      else if plyMay s1 p next (next.toward y.goal) then plyBegin p y.goal s1
      else s1.modPly p fun y => { y with busy := false, err := true }

/-- PLY_TRANSITION_DONE (R19). -/
def execPlyTransitionDone (p : Fin 12) (s : State) : Res := .next (settle s (plyDone p s))

/-- The automatic entry into P1 may take place (R19). -/
def autoReady (s : State) (p : Fin 12) : Bool :=
  let y := s.plies[p]
  y.st == .p0 && y.auto && !y.busy && decide (4096 ≤ y.idle) && plyIdle s p && oneOwner s p

/-- AUTO_P1_ENTRY (R19). -/
def execAutoP1Entry (p : Fin 12) (s : State) : Res :=
  .next (settle s (if autoReady s p then plyBegin p .p1 s else s))

/-- Ticks that the ply has been idle. -/
def countIdle (s : State) : State :=
  { s with plies := Vector.ofFn fun (i : Fin 12) =>
      let y := s.plies[i]
      { y with idle := if y.st = .p0 ∧ y.auto = true ∧ plyIdle s i = true then y.idle + 1 else 0 } }

/-! ### Bring-up (R23) -/

/-- STANDCFG as the board straps give it: its RW fields (R408). -/
def strapped : Word := Config.straps &&& 0x0000FFF008000FFF

/-- TIME as step 4 sets it: from the stand master on a member that is not the master (R23, R420). -/
def firstTime : Nat :=
  let w := strapped.toNat
  if bitOf w 27 && fld w 36 12 != fld w 0 12 then Config.masterTime % 2 ^ 64 else 0

/-- The canopy ports train (R23, R409): a port that has not found its neighbour when training ends has failed. -/
def trainingEnds (s : State) : State :=
  { s with link := { s.link with ports := s.link.ports.map fun w => if w.getLsbD trainBit then portBits false true false w else w } }

/-- The three checks that admit the root firmware image (R435): its key's hash is the fused one, its signature of 3,309 bytes verifies over
the image's digest, its security version is at least the fused counter. -/
def firmwareAdmitted : Bool :=
  Config.shake256 Config.firmwareKey == Config.fusedKeyHash && Config.firmwareSignature.length == 3309 &&
    Config.verifies Config.firmwareKey (Config.shake256 Config.firmwareImage) Config.firmwareSignature &&
    decide (Config.fusedCounter ≤ Config.firmwareVersion)

/-- The next ply to leave P3; ply 0 first, at least 8,500 ticks apart. -/
def bringUpPlies (s : State) : State :=
  match (List.finRange 12).find? fun i => s.plies[i].st != .p0 with
  | none => { s with bringUp := 7 }.at (s.time + 1) .bringUpStep
  | some i =>
    if s.plies[i].busy then s.at (s.time + 1) .bringUpStep
    else (plyBegin i .p0 (s.modPly i fun y => { y with target := .p0 })).at (s.time + 8500) .bringUpStep

/-- Cores that fail their built-in self-test. -/
def failingCores : List CoreKey :=
  (List.finRange 24).flatMap fun (c : Fin 24) => ((enabledSlots c.val).filter fun i => !Config.selfTestPasses c i).map fun i => ⟨c, Fin.ofNat 100 i⟩

/-- One bring-up step ends and the next begins. Where the firmware is not admitted bring-up stays at step 2, where a core fails at step 7,
and Ewester's status says so. The digest of the admitted image is the firmware measurement (R435). -/
def bringUp (s : State) : State :=
  match s.bringUp with
  | 1 => { s with bringUp := 2 }.later 1 .bringUpStep
  | 2 => if firmwareAdmitted then
           { s with bringUp := 3, fwMeasure := Config.shake256 Config.firmwareImage }.later 1 .bringUpStep
         else { s with rejected := true }
  | 3 => ({ s with
      bringUp := 4, clr := { s.clr with keeper := [] },
      link := { s.link with standcfg := strapped, ports := s.link.ports.map fun w => portBits false false true w } } : State).later 1
        .bringUpStep
  | 4 => ({ trainingEnds s with bringUp := 5, time := firstTime } : State).later 1 .bringUpStep
  | 5 => { s with bringUp := 6, clr := { s.clr with shadow := [], active := [] } }.later 1 .bringUpStep
  | 6 => bringUpPlies s
  | 7 => if failingCores = [] then ({ s with bringUp := 8, lines := [], lpddr := [] } : State).later 1 .bringUpStep
         else { s with failed := failingCores }
  | 8 => { s with bringUp := 9, isReady := true }
  | _ => s

/-- BRING_UP_STEP (R23, R435). -/
def execBringUpStep (s : State) : Res := .next (settle s (bringUp s))

/-! ### The power share (R26) -/

/-- POWER_SHARE_LIMIT (R26): issue on the partition's cores freezes while its draw would exceed its share. -/
def execPowerShareLimit (p : Fin 24) (exceeds : Bool) (s : State) : Res :=
  .next (settle s (s.modPart p fun q => { q with throttled := exceeds }))

/-! ### The activity forecast (R24, R329) -/

/-- Ticks of the last 4,096 in which the term engine was busy, and the vector unit issued. -/
def Core.occupancy (c : Core) : Nat × Nat :=
  let now := (c.ev[14] + c.ev[15] + c.ev[16] + c.ev[17], c.ev[23])
  let then_ : BitVec 32 × BitVec 32 := c.hist[15]?.getD (0, 0)
  (Nat.min 4096 (now.1 - then_.1).toNat, Nat.min 4096 (now.2 - then_.2).toNat)

/-- A context that the forecast counts, with its occupancies in 4,096ths: RUNNING, or to start by the forecast's TIME, and
not asked to leave. -/
def forecastOf (s : State) (c : Core) (x : Ctx) : Option (Nat × Nat) :=
  match s.gang? x.gid with
  | none => none
  | some g =>
    if g.grace.isSome then none
    else if x.st = .running then some c.occupancy
    else if x.st = .standby then (g.start.filter fun t => decide (t ≤ s.time + 3328)).map fun _ => (4096, 4096)
    else none

/-- PSTATE of a ply's forecast. -/
def forecastState (y : Ply) (cores : Nat) : Nat :=
  if y.auto ∧ cores = 0 then 1 else PState.code (if y.busy then y.target else y.st)

/-- ACTF of a ply. -/
def forecastPly (s : State) (i : Fin 12) : Word :=
  let cs := (s.plyCores i).flatMap fun e => [forecastOf s e.2 e.2.act, forecastOf s e.2 e.2.sby].filterMap id
  let part (xs : List Nat) : Nat := Nat.min 255 (255 * xs.sum / (192 * 4096))
  BitVec.ofNat 64 ((s.time + 3328) % 2 ^ 32 * 2 ^ 32 + Nat.min 255 cs.length * 2 ^ 24 + part (cs.map (·.1)) * 2 ^ 16 +
    part (cs.map (·.2)) * 2 ^ 8 + forecastState s.plies[i] cs.length * 2 ^ 6 + 1)

/-- The root writes the forecasts; the counts of this tick are kept for those to come. -/
def forecast (s : State) : State :=
  if s.time % 256 ≠ 0 then s
  else
    let note (c : Core) : Core :=
      { c with hist := ((c.ev[14] + c.ev[15] + c.ev[16] + c.ev[17], c.ev[23]) :: c.hist).take 16 }
    { s with
      actf := Vector.ofFn fun (n : Fin 13) =>
        if h : n.val < 12 then forecastPly s ⟨n.val, h⟩ else BitVec.ofNat 64 ((s.time + 3328) % 2 ^ 32 * 2 ^ 32 + 1),
      core := note s.core, others := s.others.map fun e => (e.1, note e.2) }

/-- ACTIVITY_FORECAST (R24, R329). -/
def execActivityForecast (s : State) : Res := .next (settle s (forecast s))

/-! ### Patrol scrub (R28, R29) -/

/-- A visit of patrol scrub finds an uncorrectable error: that of a line is recorded (R28), that of a mirror, a scratchpad or an m
register is met by the access that consumes it (R27, R374, entry 85). -/
def scrubFinds (a : ScrubAt) (s : State) : State :=
  match a with
  | .line n => markLine n s
  | .mirror p => s.modPly p fun y => { y with bad := true }
  | .pad k off => s.modAt k fun c => { c with spBad := off :: c.spBad.filter (· != off) }
  | .mreg k m => s.modAt k fun c => { c with tile := { c.tile with mBad := m :: c.tile.mBad.filter (· != m) } }

/-- PATROL_SCRUB (R28, R29). -/
def execPatrolScrub (a : ScrubAt) (bad : Bool) (s : State) : Res :=
  .next (settle s (if bad then scrubFinds a s else s))

/-- Lines of LPDDR 5X. -/
def memLines : Nat := memTop / 128

/-- What patrol scrub visits in a tick (R29). One line every eighth tick goes through all of them in 3 × 2^34 ticks, less than 2^36; in
between the mirrors and the scratchpads have their turns, those of powered plies alone. -/
def scrubVisits (s : State) : List ScrubAt :=
  let n := s.time / 8
  if s.time % 8 = 0 then [.line (n % memLines)]
  else if s.time % 8 = 4 then
    let p : Fin 12 := Fin.ofNat 12 n
    let k : CoreKey := ⟨Fin.ofNat 24 (n / 49152 / 100), Fin.ofNat 100 (n / 49152)⟩
    (if s.plies[p].st = .p3 then [] else [.mirror p]) ++
      match s.plies[plyOf k.cl.val].st with
      | .p0 | .p1 => [.pad k (64 * (n % 49152) + Config.pick s.seed % 64), .mreg k (Fin.ofNat 8 n)]
      | _ => []
  else []

end Sys2Proof.Machine
end

