-- ==== Sys2Proof/Machine/PartEvents.lean ====
section
/-! DEFINITION. Partitions: CREATE, APPLY, DESTROY with their steps, Function Level Reset and the report of Ewester
(R425-R427, R432-R434, R437, R440, R493). -/

namespace Sys2Proof.Machine

/-! ### Commands (R425, R426) -/

/-- Two ownership masks name a common resource. -/
def Own.shares (a b : Own) : Bool := a.ch &&& b.ch != 0 || a.slc &&& b.slc != 0 || a.cl &&& b.cl != 0

/-- Some mask names nothing. -/
def Own.lacks (a : Own) : Bool := a.ch == 0 || a.slc == 0 || a.cl == 0

/-- What refuses every command: one in progress, or a shadow that names what another partition holds (R426). -/
def partBusy (pn : Fin 24) (s : State) : Bool :=
  (s.part pn).busy || (List.finRange 24).any fun q => q != pn && (s.part pn).shadow.shares (s.part q).active

/-- A refused command sets ERR. -/
def partErr (pn : Fin 24) (s : State) : State := s.modPart pn fun p => { p with err := true }

/-- The registers of both pages at Reset, with what outlives them: the masks, the generation, the ERR flag, and the
Clearing bytes to be zeroed, those of the old allocation among them (R434, R436). -/
def Part.created (p : Part) (next : Nat) : Part :=
  let old := claRange p.clalloc
  { Part.reset with
    shadow := p.shadow, active := p.shadow, state := 1, err := p.err, gen := p.gen, measure := p.measure,
    held := p.held ++ (if old.1 < old.2 then [old] else []),
    heldAfter := if old.1 < old.2 then next else p.heldAfter }

/-- CREATE (R426). -/
def partCreate (pn : Fin 24) (s : State) : State :=
  if partBusy pn s || (s.part pn).state != 0 || (s.part pn).shadow.lacks then partErr pn s
  else
    measured pn ({ s with gangs := s.gangs.filter fun g => g.part != pn }.modPart pn fun p => p.created (s.idOf pn.val))

/-- PARTCMD_CREATE (R426). -/
def execPartcmdCreate (p : Fin 24) (s : State) : Res := .next (settle s (partCreate p s))

/-- Clusters that the masks in force lose (R433). -/
def Part.leaving (p : Part) : List Nat :=
  (List.range 24).filter fun c => p.active.cl.getLsbD c && !p.target.cl.getLsbD c

/-- Steps 1 and 2 of R433: every task with a member on a leaving cluster is pre-empted. -/
def leaveClusters (pn : Fin 24) (s : State) : State :=
  (s.part pn).tasks.foldl (fun s t =>
    if (s.gangsOf t).any fun g => (s.part pn).leaving.contains g.cl then requestTask pn t.serial s else s) s

/-- The change to the masks `to_` begins. -/
def changeBegins (pn : Fin 24) (to_ : Own) (ends : Bool) (s : State) : State :=
  leaveClusters pn (s.modPart pn fun p => { p with state := 2, busy := true, target := to_, destroying := ends })

/-- APPLY (R426, R433). -/
def partApply (pn : Fin 24) (s : State) : State :=
  if partBusy pn s || (s.part pn).state != 1 || (s.part pn).shadow.lacks then partErr pn s
  else changeBegins pn (s.part pn).shadow false s

/-- DESTROY (R426): an APPLY to empty masks. -/
def partDestroy (pn : Fin 24) (s : State) : State :=
  if partBusy pn s then partErr pn s else changeBegins pn ⟨0, 0, 0⟩ true s

/-- PARTCMD_APPLY (R426, R433). -/
def execPartcmdApply (p : Fin 24) (s : State) : Res := .next (settle s (partApply p s))

/-- PARTCMD_DESTROY (R426). -/
def execPartcmdDestroy (p : Fin 24) (s : State) : Res := .next (settle s (partDestroy p s))

/-- A write of PARTCMD (R425, R426): ERR is cleared first, then the command, if any, is taken. -/
def partcmdWrite (pn : Fin 24) (val : Word) (s : State) : State :=
  let s1 := if val.getLsbD 6 then s.modPart pn fun p => { p with err := false } else s
  match fld val.toNat 0 4 with
  | 0 => s1
  | 1 => partCreate pn s1
  | 2 => partApply pn s1
  | 3 => partDestroy pn s1
  | _ => partErr pn s1

/-! ### The end of a change (R433, R440) -/

/-- Cores of a cluster, in ascending order. -/
def clusterCores (cl : Nat) : List CoreKey := (List.finRange 100).map fun i => ⟨Fin.ofNat 24 cl, i⟩

/-- Every context of a leaving cluster has been saved or has ended. -/
def applyReady (s : State) (pn : Fin 24) : Bool :=
  (s.part pn).state == 2 && (s.part pn).busy &&
    (s.part pn).leaving.all fun cl => (clusterCores cl).all fun k =>
      (s.coreAt k).act.st == .empty && (s.coreAt k).sby.st == .empty

/-- Step 4 of R433 on one core: the last sweep, then everything the core holds is zero (R440), its translation cache empty (entry 89). -/
def releaseCore (pn : Fin 24) (k : CoreKey) (s : State) : State :=
  (sweep k pn s).modAt k fun c =>
    { c.scrubbed with
      tlb := [], ev := Vector.replicate 25 0, evSeen := Vector.replicate 25 0, evTick := Vector.replicate 25 0, hist := [], meshTok := none }

/-- Physical address `pa` lies in a channel group of the mask (R493). -/
def inGroups (ch : BitVec 16) (pa : Nat) : Bool := decide (pa < memTop) && ch.getLsbD (pa / (48 * 2 ^ 30))

/-- Step 5 of R433: the old slices write back P's lines and drop all of them. A marked line is never written back: it stays in its
slice while P keeps the slice; the scrub of a leaving slice writes all of its bytes, which ends the mark (R28), and memory keeps what it
held below the line. -/
def moveSlices (p : Part) (s : State) : State :=
  let mine (line : Nat) : Bool := inGroups p.active.ch (128 * line)
  let s1 := s.evictAll mine
  let leaves (l : Nat × Line) : Bool := mine l.1 && l.2.bad.isSome && !(p.target.slc.getLsbD (l.2.home / 8))
  let gone := (s1.lines.filter leaves).map fun l => l.1
  let under := s1.lpddr.filter fun c => gone.contains (c.1 / 128)
  { s1 with wrote := under ++ s1.wrote,
            lpddr := s1.lpddr.filter fun c => !(gone.contains (c.1 / 128)),
            older := s1.older.filter fun o => !(gone.contains (o.pa / 128)),
            lines := s1.lines.map fun l => if leaves l then (l.1, { l.2 with tag := 0, bad := none, again := true }) else l }

/-- Step 6 of R433: leaving channel groups hold zeros. -/
def scrubGroups (ch : BitVec 16) (s : State) : State :=
  let cells (l : List Host.Cell) : List Host.Cell := (l.filter fun c => inGroups ch c.1).map fun c => (c.1, 0)
  { s with wrote := cells s.wrote ++ cells s.mem ++ s.wrote,
           lpddr := s.lpddr.filter fun c => !(inGroups ch c.1),
           older := s.older.filter fun o => !(inGroups ch o.pa),
           lines := s.lines.filter fun l => !(inGroups ch (128 * l.1)) }

/-- Step 7 of R433: the masks in force change; DESTROY ends with STATE 0 (R426). -/
def Part.applied (p : Part) : Part :=
  { p with active := p.target, busy := false, state := if p.destroying then 0 else 1, destroying := false }

/-- Steps 4 to 7 of R433. -/
def applyEnds (pn : Fin 24) (s : State) : State :=
  if !applyReady s pn then s
  else
    let p := s.part pn
    let s1 := (p.leaving.flatMap clusterCores).foldl (fun s k => releaseCore pn k s) s
    let s2 := if p.target.slc = p.active.slc then s1 else moveSlices p s1
    measured pn ((scrubGroups (p.active.ch &&& ~~~p.target.ch) s2).modPart pn Part.applied)

/-- APPLY_COMPLETE (R433). -/
def execApplyComplete (p : Fin 24) (s : State) : Res := .next (settle s (applyEnds p s))

/-! ### Function Level Reset (R432) -/

/-- Steps 1 and 2 for a task: contexts are KILLed, what is queued or saved is discarded and counts as aborted. -/
def flrTask (pn : Fin 24) (serial : Nat) (s : State) : State :=
  match s.task? pn serial with
  | none => s
  | some t =>
    if t.st = .running ∨ t.st = .placing then killTask pn serial s
    else
      let s1 := ((s.gangsOf t).foldl (fun s g => dropGang g s) s).modPart pn fun p =>
        { p with tasks := p.tasks.filter fun x => x.serial != serial }
      match t.launch with
      | some id => s1.modLaunch pn id fun l => { l with left := l.left - 1, aborted := l.aborted + 1 }
      | none => s1

/-- Steps 2 to 4 for a launch: records that have not entered count as aborted, and no interrupt is sent. -/
def flrLaunch (l : Launch) : Launch := { l with aborted := l.aborted + (l.ntask - l.next), next := l.ntask, quiet := true }

/-- The partition page's registers at Reset (R432). -/
def Part.pageReset (p : Part) : Part :=
  let r := Part.reset
  { p with
    lnchErr := r.lnchErr, sig := r.sig, mapinva := r.mapinva, mapBusy := false, mapCmd := 0, mapPages := [], mapErr := r.mapErr,
    fqbase := r.fqbase, fqlog := r.fqlog,
    fqhead := 0, fqtail := 0, fqlost := r.fqlost, fqlast := none, fqmerged := 0, fqblocked := false, bwin := r.bwin,
    irqcfg := r.irqcfg, blkst := r.blkst, cntbase := r.cntbase, smpbase := r.smpbase, smplog := r.smplog, smphead := 0,
    smptail := 0, smpctl := r.smpctl, smplost := 0, flr := false }

/-- A Function Level Reset is applied (R432). -/
def flrBegins (pn : Fin 24) (s : State) : State :=
  let s1 := (((s.part pn).tasks.map fun t => t.serial).foldl (fun s n => flrTask pn n s) s).modPart pn fun p =>
    { p with doorbells := [], launches := p.launches.map flrLaunch, flr := true }
  ((s1.part pn).launches.map fun l => l.id).foldl (fun s id => launchJudge pn id s) s1

/-- FUNCTION_LEVEL_RESET (R432). -/
def execFunctionLevelReset (p : Fin 24) (s : State) : Res := .next (settle s (flrBegins p s))

/-- The launches submitted before the reset have completed. -/
def Part.flrOver (p : Part) : Bool := p.flr && p.launches.all fun l => !l.quiet

/-- Step 5: once they have, the registers are at Reset; a removal of leaves that was in progress has taken place (entry 80). -/
def flrEnds (s : State) : State :=
  (List.finRange 24).foldl (fun s p => if (s.part p).flrOver then (s.dropLeaves p).modPart p Part.pageReset else s) s

/-! ### Reports (R437) -/

/-- Bytes 0x000-0x0B7 of a report. -/
def reportBody (pn : Fin 24) (nonce : BitVec 256) (s : State) : List Byte :=
  let p := s.part pn
  toBytes 4 0x5A484154 ++ toBytes 4 (if p.state = 0 then 0xFF else pn.val) ++ toBytes 32 nonce.toNat ++
    toBytes 64 s.fwMeasure.toNat ++ toBytes 64 p.measure.toNat ++ toBytes 4 p.gen.toNat ++ toBytes 4 0 ++ toBytes 8 s.time

/-- ATTESTATION_REQUEST (R437). -/
def execAttestationRequest (p : Fin 24) (nonce : BitVec 256) (s : State) : Res :=
  let body := reportBody p nonce s
  .next { s with out := s.out ++ [.report (body ++ toBytes 3309 (Config.signature body).toNat)] }

end Sys2Proof.Machine
end

