-- ==== Sys2Proof/Machine/Queue.lean ====
section
/-! DEFINITION. TENQ and TSIG (R331, R332). -/

namespace Sys2Proof.Machine

/-- TENQ (R331): checked as a load of 64 bytes, a release point at .device, then the request goes to the root. -/
def execTenq (r : RegF) (s : State) : Res :=
  slotOp 5 r.g (fun s =>
    let a := s.src r.a
    let send (s : State) : State :=
      if !releaseReady .device s then stall s
      else
        let f : Flight := { due := s.core.act.cyc + 14, cyc := s.core.act.cyc, slot := 5, latch := none,
                            writes := if r.wb then [.s r.d 0] else [], flags := 0, need := some s.newId, refresh := none }
        let launch := ((s.part s.core.act.part).tasks.find? fun t => t.serial == s.core.act.task).bind fun t => t.launch
        let q : Tenq := { id := s.newId, key := s.key, part := s.core.act.part, gva := a, det := (s.src r.b).getLsbD 0,
                          launch := launch, arrived := none, result := none }
        commit 5 (({ fly f s.drawn with tenqs := s.tenqs ++ [q] } : State).leg (plyOf s.key.cl.val).val s.core.act.part.val
          (.tenqRequest q.id))
    if a.toNat % 64 ≠ 0 then trapAt 5 8 a s
    else if !s.peerPasses s.core.act.part (peerOf a) then trapAt 5 0xA a s
    else if s.ownDevice (peerOf a) then
      match translate (vaOf a) false s with
      | (s1, .hit _) => send s1
      | (s1, .wait) => stall s1
      | (s1, .fault rs l) => pageFault 5 a a rs l s1
    else send s) s

/-- TSIG (R332). -/
def execTsig (r : RegN) (s : State) : Res :=
  slotOp 5 r.g (fun s =>
    let a := s.src r.a
    let b : BitVec 32 := (s.src r.b).setWidth 32
    if 255 < a.toNat then trapAt 5 9 a s
    else if !releaseReady .device s then stall s
    else if b = 0 then commit 5 s
    else commit 5 (s.leg (plyOf s.key.cl.val).val s.core.act.part.val
      (.signalAdd s.core.act.part (Fin.ofNat 256 a.toNat) b (some (plyOf s.key.cl.val))))) s

end Sys2Proof.Machine
end

