-- ==== Sys2Proof/Machine/Record.lean ====
section
/-! DEFINITION. The sweeper's visits, sample records and the debugger's window (R439, R441, R443, R445-R448). -/

namespace Sys2Proof.Machine

/-- The partition that owns a cluster. -/
def State.clusterPart (s : State) (cl : Nat) : Option (Fin 24) := (List.finRange 24).find? fun p => (s.part p).active.cl.getLsbD cl

/-- SWEEPER_VISIT (R439): the counters of a core go to the partition that owns it, whether or not it holds a context. -/
def execSweeperVisit (k : CoreKey) (s : State) : Res :=
  .next (settle s (match s.clusterPart k.cl.val with
    | some p => sweep k p s
    | none => s))

/-- The slot whose freeze holds the core, or 7: a slot that waits within its issue, or the one whose result is due and has not arrived
(R74, R443). -/
def frozenSlot (c : Ctx) : Nat :=
  match c.st, c.phase, c.bun with
  | .running, .issuing, some b => (match b.slots with | i :: _ => i.slot?.getD 7 | [] => 7)
  | .running, _, _ => ((c.dueNow.find? fun f => f.need.isSome).map Flight.slot).getD 7
  | _, _, _ => 7

/-- A sample of core `k` is due at this tick (R442, R443). -/
def sampleDue (s : State) (k : CoreKey) : Bool :=
  let c := (s.coreAt k).act
  let w := (s.part c.part).smpctl.toNat
  (c.st == .running || c.st == .frozen) && bitOf w 0 && s.time % 2 ^ fld w 16 5 == 0

/-- The sample record of the core in view (R441, R443). -/
def takeSample (s : State) : State :=
  let c := s.core.act
  let cls := tileClass s.core s.time
  putSample c.part 1 [s.time, (c.id s.key).toNat,
    cls.1 * 2 ^ 61 + frozenSlot c * 2 ^ 58 + cls.2 % 2 ^ 22 * 2 ^ 36 + c.pos % 2 ^ 22] s

/-- SAMPLE_RECORD (R443). -/
def execSampleRecord (k : CoreKey) (s : State) : Res :=
  .next (settle s (if sampleDue s k then takeSample (s.focus k) else s))

/-! ### The debugger's window (R447) -/

/-- Word of the buffer table in the layout of R276. -/
def tableWord (c : Core) (n : Nat) : Nat :=
  let i : Fin 256 := Fin.ofNat 256 (n / 2)
  let h := c.handles[i]
  if 512 ≤ n then 0
  else if n % 2 = 0 then h.exp * 2 ^ 32 + h.arr
  else c.handleWord i

/-- Word of the time-sorted buffer, its commands in issue order. -/
def copyWord (c : Core) (n : Nat) : Nat :=
  match (c.copies.sortBy fun a b => decide (a.id ≤ b.id))[n / 2]? with
  | none => 0
  | some x => if n % 2 = 1 then x.rel else (if x.st = 0 then 0 else if x.st = 3 then 2 else 1) * 2 ^ 62 + x.desc % 2 ^ 22

/-- Word of the scalar registers, predicates and masks. -/
def regWord (r : RegFile) (n : Nat) : Nat :=
  if n < 64 then (r.rs (Fin.ofNat 64 n)).toNat
  else if n = 64 then ((List.finRange 8).map fun i => b2n (r.rp i) * 2 ^ i.val).sum
  else if n < 73 then (r.rk (Fin.ofNat 8 (n - 65))).toNat
  else 0

/-- The word that DBGSEL names (R447). -/
def debugWord (s : State) (c : Core) (space n : Nat) : Nat :=
  match space with
  | 0 => regWord c.act.regs n
  | 1 => if n < 1024 then lane 64 c.act.regs.v[Fin.ofNat 32 (n / 32)] (n % 32) else 0
  | 2 => if n < 32768 then lane 64 c.tile.m[Fin.ofNat 8 (n / 4096)] (n % 4096) else 0
  | 3 => if n < 16384 then lane 64 c.tile.ps[Fin.ofNat 2 (n / 8192)] (n % 8192) else 0
  | 4 =>
    if n = 0 then c.tile.ops.length % 4 + b2n (c.tile.ops != []) * 4
    else if n < 4 then (match c.tile.ops[n - 1]? with | some o => o.addr | none => 0)
    else 0
  | 5 => copyWord c n
  | 6 =>
    match s.gang? c.act.gid with
    | some g => if n < 64 then g.bars[Fin.ofNat 16 (n / 4)].words.getD (n % 4) 0 else 0
    | none => 0
  | 7 => tableWord c n
  | 8 => if n < 384 then lane 64 c.act.regs.lat[Fin.ofNat 12 (n / 32)] (n % 32) else 0
  | 9 =>
    match c.act.bun with
    | some b => if n = 0 then b.mask.toNat * 256 + b.done.toNat else if n = 1 then b.cyc else 0
    | none => if n = 1 then c.act.vcyc else 0
  | _ => 0

/-- DBGDATA (R447): zero unless the context is FROZEN. -/
def debugData (s : State) (k : CoreKey) : Word :=
  let c := s.coreAt k
  if c.act.st = .frozen then BitVec.ofNat 64 (debugWord s c (fld c.regsx.dbgsel.toNat 60 4) (fld c.regsx.dbgsel.toNat 0 20))
  else 0

end Sys2Proof.Machine
end

