-- ==== Sys2Proof/Machine/Registers.lean ====
section
/-! DEFINITION. The registers of BAR-A: where they lie, who reaches them, what reads return and what writes do
(R423 and the chapters that give each register). -/

namespace Sys2Proof.Machine

/-- A register of BAR-A, by name or by its offset in a partition's page. -/
inductive Reg where
  | plyctl (n : Fin 12)
  | actf (n : Fin 13)
  | planctl
  | slotplan (c s : Nat)
  | standcfg
  | port (n : Fin 64)
  | route (n : Nat)
  | ctxctl (k : CoreKey) (x : Bool)
  | ctxfrm (k : CoreKey) (x : Bool)
  | cpyctl (k : CoreKey)
  | dbg (k : CoreKey) (n : Nat)
  | page (p : Fin 24) (off : Nat)
  | pfPage (p : Fin 24) (off : Nat)
  deriving DecidableEq, Repr

/-- The core of cluster `off / 0x1000` and slot `sl`, where both exist. -/
def coreOf (cl sl : Nat) : Option CoreKey := if cl < 24 ∧ sl < 100 then some ⟨Fin.ofNat 24 cl, Fin.ofNat 100 sl⟩ else none

/-- The register at an 8-byte offset (R18, R24, R96, R297, R358, R359, R408-R410, R423, R445). -/
def regAt (off : Nat) : Option Reg :=
  if 0x10000 ≤ off ∧ off < 0x10300 then if off % 64 = 0 then some (.plyctl (Fin.ofNat 12 ((off - 0x10000) / 64))) else none
  else if 0x11000 ≤ off ∧ off < 0x11068 then some (.actf (Fin.ofNat 13 ((off - 0x11000) / 8)))
  else if off = 0x13000 then some .planctl
  else if 0x14000 ≤ off ∧ off < 0x14000 + 8 * 960 then
    some (.slotplan ((off - 0x14000) / 512) ((off - 0x14000) / 8 % 64))
  else if off = 0x18000 then some .standcfg
  else if 0x19000 ≤ off ∧ off < 0x19200 then some (.port (Fin.ofNat 64 ((off - 0x19000) / 8)))
  else if 0x20000 ≤ off ∧ off < 0x20000 + 8 * 3541 then some (.route ((off - 0x20000) / 8))
  else if 0x200000 ≤ off ∧ off < 0x218000 then
    (coreOf ((off - 0x200000) / 0x1000) (off % 0x1000 / 32)).map fun k =>
      if bitOf off 3 then .ctxfrm k (bitOf off 4) else .ctxctl k (bitOf off 4)
  else if 0x300000 ≤ off ∧ off < 0x318000 then
    if bitOf off 3 then none else (coreOf ((off - 0x300000) / 0x1000) (off % 0x1000 / 16)).map .cpyctl
  else if 0x340000 ≤ off ∧ off < 0x358000 then
    (coreOf ((off - 0x340000) / 0x1000) (off % 0x1000 / 32)).map fun k => .dbg k (off / 8 % 4)
  else if 0x400000 ≤ off ∧ off < 0x700000 then
    let p : Fin 24 := Fin.ofNat 24 ((off - 0x400000) / 0x20000)
    if bitOf off 16 then some (.pfPage p (off % 0x10000)) else some (.page p (off % 0x10000))
  else none

/-- Whether a function reaches the register: the PF reaches all; a VF the page of its own partition and the command and
debug registers of its partition's cores (R96, R297, R423, R445). -/
def regSeen (fn : Fin 25) (r : Reg) (s : State) : Bool :=
  match vfPart fn with
  | none => true
  | some p =>
    let q := s.part p
    let own (k : CoreKey) : Bool := q.active.cl.getLsbD k.cl.val
    q.state != 0 &&
      match r with
      | .page n _ => n == p
      | .ctxctl k _ | .ctxfrm k _ | .cpyctl k | .dbg k _ => own k
      | _ => false

/-! ### Reads -/

/-- PLYCTL (R18). -/
def Ply.word (y : Ply) : Nat :=
  b2n y.err * 2 ^ 11 + b2n y.busy * 2 ^ 10 + b2n y.auto * 2 ^ 9 + y.st.code * 16 + y.target.code

/-- CTXCTL (R96). A PARK is in progress, BUSY = 1, until its frame is written; the other commands take effect on the tick of the write
(entry 47). -/
def ctxctlWord (c : Core) (x : Bool) : Nat :=
  let i : Fin 2 := if x then 1 else 0
  c.regsx.ctxCause[i].toNat * 2 ^ 32 + (c.slot x).st.code * 2 ^ 24 + b2n c.regsx.ctxBusy[i] * 32 + b2n c.regsx.ctxErr[i] * 16

/-- CPYCTL (R297). -/
def cpyctlWord (c : Core) : Nat :=
  ((List.finRange 4).map fun q => b2n (c.stoppedCopy q).isSome * 2 ^ (12 + q.val)).sum + b2n c.regsx.cpyErr * 16

/-- Registers of a partition's page (R270, R317, R321, R424, R430, R439, R442, R268). -/
def pageRead (p : Part) (off : Nat) : Word :=
  let n (x : Nat) : Word := BitVec.ofNat 64 x
  let count (f : Task → Bool) : Nat := (p.tasks.filter f).length
  if off = 0x108 then n (p.outstanding * 256 + b2n p.lnchErr)
  else if off = 0x110 then
    n (count (fun t => t.st == .waiting) * 2 ^ 32 + count (fun t => t.st == .ready || t.st == .saved) * 2 ^ 16 +
      (p.capacity - p.tasksHeld))
  else if off = 0x120 then p.bwin
  else if off = 0x140 then p.irqcfg
  else if off = 0x148 then p.blkst
  else if off = 0x150 then p.cntbase
  else if off = 0x160 then p.smpbase
  else if off = 0x168 then n p.smplog
  else if off = 0x170 then n p.smphead
  else if off = 0x178 then n p.smptail
  else if off = 0x180 then p.smpctl
  else if off = 0x190 then p.fqbase
  else if off = 0x198 then n p.fqlog
  else if off = 0x1A0 then n p.fqhead
  else if off = 0x1A8 then n p.fqtail
  else if off = 0x1B0 then p.fqlost
  else if off = 0x1C0 then p.mapinva
  else if off = 0x1C8 then n (b2n p.mapBusy * 32 + b2n p.mapErr * 16)
  else if 0x1000 ≤ off ∧ off < 0x1800 then ((lookupD p.sig ((off - 0x1000) / 8) (0 : BitVec 32)).setWidth 64)
  else 0

/-- Registers of a partition's PF page (R98, R268, R321, R362, R392, R413, R414, R417, R425, R428). -/
def pfRead (p : Part) (off : Nat) : Word :=
  if off = 0x000 then p.shadow.word
  else if off = 0x008 then BitVec.ofNat 64 (p.state * 256 + b2n p.busy * 128 + b2n p.err * 64)
  else if off = 0x200 then p.schctl
  else if off = 0x208 then p.frbase
  else if off = 0x210 then p.frcnt
  else if off = 0x218 then p.clalloc
  else if off = 0x220 then p.pullctl
  else if off = 0x228 then p.reqctl
  else if off = 0x230 then p.partstid
  else if off = 0x238 then p.meshctl
  else if off = 0x240 then p.maproot
  else if off = 0x248 then p.gracecfg
  else if 0x300 ≤ off ∧ off < 0x4C0 then BitVec.ofNat 64 (lane 64 p.peerwin ((off - 0x300) / 8))
  else 0

/-- What a register holds. -/
def regRead (r : Reg) (s : State) : Word :=
  match r with
  | .plyctl n => BitVec.ofNat 64 s.plies[n].word
  | .actf n => s.actf[n]
  | .planctl => BitVec.ofNat 64 (b2n s.clr.busy * 128 + b2n s.clr.err * 64)
  | .slotplan c sl => (planEntry s.clr.shadow c sl).setWidth 64
  | .standcfg => s.link.standcfg
  | .port n => s.link.ports[n] &&& 0x0FFF000C
  | .route n => lookupD s.link.routes n 0
  | .ctxctl k x => BitVec.ofNat 64 (ctxctlWord (s.coreAt k) x)
  | .ctxfrm k x => (s.coreAt k).regsx.ctxFrm[if x then (1 : Fin 2) else 0]
  | .cpyctl k => BitVec.ofNat 64 (cpyctlWord (s.coreAt k))
  | .dbg k 0 => (s.coreAt k).regsx.dbgctl
  | .dbg k 1 => (s.coreAt k).regsx.dbgsel
  | .dbg k 2 => debugData s k
  | .dbg _ _ => 0
  | .page p off => pageRead (s.part p) off
  | .pfPage p off => pfRead (s.part p) off

/-- A read or write of `n` bytes that BAR-A takes: 4 or 8, naturally aligned, once the device is READY (R23, R423). -/
def barTakes (off n : Nat) (s : State) : Bool := s.isReady && decide (off < 2 ^ 23) && (n == 4 || n == 8) && off % n == 0

/-- A register read of function `fn` (R423). -/
def barRead (fn : Fin 25) (off n : Nat) (s : State) : Word :=
  if !barTakes off n s then 0
  else
    match regAt (off / 8 * 8) with
    | none => 0
    | some r =>
      if regSeen fn r s then
        if n = 4 then BitVec.ofNat 64 (fld (regRead r s).toNat (8 * (off % 8)) 32) else regRead r s
      else 0

/-- W1C bits of a register: a 4-byte write of the other half leaves them (R423). -/
def regW1C (r : Reg) : Word :=
  match r with
  | .plyctl _ => 0x800
  | .planctl => 0x40
  | .standcfg => 0x10000000
  | .port _ => 4
  | .ctxctl _ _ | .cpyctl _ => 0x10
  | .page _ off => if off = 0x108 then 1 else if off = 0x1B0 then BitVec.allOnes 64 else if off = 0x1C8 then 0x10 else 0
  | .pfPage _ off => if off = 0x008 then 0x40 else 0
  | _ => 0

/-! ### Writes -/

/-- PLYCTL (R18, R19). AUTO and the clear of ERR take effect where TARGET is refused, too (entry 47). -/
def plyctlWrite (n : Fin 12) (val : Word) (s : State) : State :=
  if s.plies[n].busy then s.modPly n fun y => { y with err := true }
  else
    let goal : PState := match fld val.toNat 0 2 with | 0 => .p0 | 1 => .p1 | 2 => .p2 | _ => .p3
    plyRequest n goal (s.modPly n fun y => { y with err := y.err && !val.getLsbD 11, auto := val.getLsbD 9 })

/-- SLOTPLAN (R358, R360): the shadow plan; the three fixed slots of column 0 keep their entries. -/
def slotplanWrite (c sl : Nat) (val : Word) (s : State) : State :=
  if planFixed c sl then s
  else { s with clr := { s.clr with shadow := insertK s.clr.shadow (64 * c + sl) (BitVec.ofNat 13 (val &&& 0x1F0F).toNat) } }

/-- SCHCTL (R321): a field outside its range keeps its value, and so does a CAP that the other partitions leave no room for. -/
def schctlWrite (pn : Fin 24) (val : Word) (s : State) : Word :=
  let old := (s.part pn).schctl
  let v := val.toNat
  let others := ((List.finRange 24).map fun q => if q = pn then 0 else (s.part q).capacity).sum
  let a := if 64 ≤ fld v 0 13 ∧ fld v 0 13 ≤ 4096 ∧ others + fld v 0 13 ≤ 16384 then mergeBits old val 0x1FFF else old
  let b := if fld v 16 5 = 0 ∨ (10 ≤ fld v 16 5 ∧ fld v 16 5 ≤ 30) then mergeBits a val 0x1F0000 else a
  let c := if 8 ≤ fld v 24 5 ∧ fld v 24 5 ≤ 24 then mergeBits b val 0x1F000000 else b
  mergeBits c val 0x80000000

/-- A PULLCTL write that is refused (R392). -/
def pullctlRefused (pn : Fin 24) (val : Word) (s : State) : Bool :=
  let v := val.toNat
  let others := ((List.finRange 24).map fun q => if q = pn then 0 else fld (s.part q).pullctl.toNat 48 16).sum
  decide (16 * 3360 < others + fld v 48 16) || decide (64 * planSlots s.clr.active pn.val < fld v 32 16) ||
    decide (16 * 1024 < fld v 16 16) || decide (fld v 16 16 < fld v 0 16)

/-- REQCTL (R417): a SHARE that makes the sum exceed 256 keeps its value. -/
def reqctlWrite (pn : Fin 24) (val : Word) (s : State) : Word :=
  let old := (s.part pn).reqctl
  let others := ((List.finRange 24).map fun q => if q = pn then 0 else fld (s.part q).reqctl.toNat 0 8).sum
  mergeBits (if others + fld val.toNat 0 8 ≤ 256 then mergeBits old val 0xFF else old) val 0x100

/-- A MESHCTL write that is refused (R428). -/
def meshctlRefused (pn : Fin 24) (val : Word) (s : State) : Bool :=
  let holds (q : Fin 24) (ply : Nat) : Bool :=
    (s.part q).active.cl.getLsbD (2 * ply) || (s.part q).active.cl.getLsbD (2 * ply + 1)
  let rate (q : Fin 24) : Nat := fld (if q = pn then val else (s.part q).meshctl).toNat 32 16
  decide (fld val.toNat 32 16 < fld val.toNat 0 16) ||
    (List.range 12).any fun y => decide (16 * 2048 < ((List.finRange 24).map fun q => if holds q y then rate q else 0).sum)

/-- PEERWINi (R413): bits for positions above 3,540 read as zero. -/
def peerwinWrite (i : Nat) (val : Word) (old : BitVec 3584) : BitVec 3584 :=
  BitVec.ofNat 3584 (ofLanes 64 ((List.range 56).map fun j =>
    if j = i then (if j = 55 then fld val.toNat 0 21 else val.toNat) else lane 64 old j))

/-- A write in a partition's page (R268, R270, R317, R319, R321, R424, R430, R431, R439, R442). -/
def pageWrite (fn : Fin 25) (p : Fin 24) (off : Nat) (val : Word) (s : State) : State :=
  let set (f : Part → Part) : State := s.modPart p f
  if off = 0x100 then doorbell p fn.val val true s
  else if off = 0x108 then set fun q => { q with lnchErr := q.lnchErr && !val.getLsbD 0 }
  else if off = 0x120 then set fun q => { q with bwin := val &&& 0x000FFFFFF0000000 }
  else if off = 0x140 then set fun q => { q with irqcfg := val &&& 0xBFBF }
  else if off = 0x148 then set fun q => { q with blkst := mergeBits q.blkst val 0xFFFF }
  else if off = 0x150 then set fun q => { q with cntbase := val &&& ~~~0x1FF#64 }
  else if off = 0x160 then setSampleRing p false val s
  else if off = 0x168 then setSampleRing p true val s
  else if off = 0x178 then set fun q => { q with smptail := val.toNat }
  else if off = 0x180 then
    set fun q =>
      let w := if 8 ≤ fld val.toNat 16 5 ∧ fld val.toNat 16 5 ≤ 24 then mergeBits q.smpctl val 0x1F0000 else q.smpctl
      { q with smpctl := mergeBits w val 7 }
  else if off = 0x190 then setFaultQueue p false val s
  else if off = 0x198 then setFaultQueue p true val s
  else if off = 0x1A8 then writeFqtail p val s
  else if off = 0x1B0 then set fun q => { q with fqlost := q.fqlost &&& ~~~val }
  else if off = 0x1C0 then set fun q => { q with mapinva := val }
  else if off = 0x1C8 then mapinvcWrite p val s
  else if 0x1000 ≤ off ∧ off < 0x1800 then setSignal p (Fin.ofNat 256 ((off - 0x1000) / 8)) (val.setWidth 32) s
  else s

/-- A write in a partition's PF page; accepted writes of what R436 measures are measured. -/
def pfWrite (p : Fin 24) (off : Nat) (val : Word) (s : State) : State :=
  let set (f : Part → Part) : State := s.modPart p f
  if off = 0x000 then
    set fun q => { q with shadow := ⟨BitVec.ofNat 16 (val.toNat / 2 ^ 48), BitVec.ofNat 24 (val.toNat / 2 ^ 24), BitVec.ofNat 24 val.toNat⟩ }
  else if off = 0x008 then partcmdWrite p val s
  else if off = 0x200 then measured p (set fun q => { q with schctl := schctlWrite p val s })
  else if off = 0x208 then set fun q => { q with frbase := val &&& ~~~0xFFFF#64 }
  else if off = 0x210 then set fun q => { q with frcnt := val &&& 0xFF }
  else if off = 0x218 then clallocSet p val s
  else if off = 0x220 then if pullctlRefused p val s then s else measured p (set fun q => { q with pullctl := val })
  else if off = 0x228 then measured p (set fun q => { q with reqctl := reqctlWrite p val s })
  else if off = 0x230 then measured p (set fun q => { q with partstid := val &&& 0xFFFF })
  else if off = 0x238 then
    if meshctlRefused p val s then s else measured p (set fun q => { q with meshctl := val &&& 0x0000FFFF0000FFFF })
  else if off = 0x240 then set fun q => { q with maproot := val &&& 0x000000FFFFFF0000 }
  else if off = 0x248 then
    if 1024 ≤ fld val.toNat 0 31 ∧ fld val.toNat 0 31 ≤ 2 ^ 30 then set fun q => { q with gracecfg := val &&& 0x7FFFFFFF } else s
  else if 0x300 ≤ off ∧ off < 0x4C0 then
    measured p (set fun q => { q with peerwin := peerwinWrite ((off - 0x300) / 8) val q.peerwin })
  else s

/-- An 8-byte write of a register. -/
def regWrite (fn : Fin 25) (r : Reg) (val : Word) (s : State) : State :=
  match r with
  | .plyctl n => plyctlWrite n val s
  | .actf _ => s
  | .planctl => planctlWrite val s
  | .slotplan c sl => slotplanWrite c sl val s
  | .standcfg => standcfgWrite val s
  | .port n => portWrite n val s
  | .route n => routeWrite n val s
  | .ctxctl k x => ctxctlWrite k x val s
  | .ctxfrm k x => s.modAt k fun c => { c with regsx := { c.regsx with
      ctxFrm := c.regsx.ctxFrm.set (b2n x) (val &&& ~~~0xFFFF#64) (by unfold b2n; split <;> omega) } }
  | .cpyctl k => cpyctlWrite val (s.focus k)
  | .dbg k 0 => s.modAt k fun c => { c with regsx := { c.regsx with dbgctl := val &&& 0x1C } }
  | .dbg k 1 => s.modAt k fun c => { c with regsx := { c.regsx with dbgsel := val &&& 0xF0000000000FFFFF } }
  | .dbg _ _ => s
  | .page p off => pageWrite fn p off val s
  | .pfPage p off => pfWrite p off val s

/-- The 64-bit value of a 4-byte write (R423). -/
def halfWrite (r : Reg) (high : Bool) (val : Word) (s : State) : Word :=
  let held := regRead r s &&& ~~~regW1C r
  if high then (held &&& 0xFFFFFFFF) ||| (val <<< 32) else (held &&& 0xFFFFFFFF00000000) ||| (val &&& 0xFFFFFFFF)

/-- A register write of function `fn` (R423). LNCHDB takes only 8-byte writes. -/
def barWrite (fn : Fin 25) (off n : Nat) (val : Word) (s : State) : State :=
  if !barTakes off n s then s
  else
    match regAt (off / 8 * 8) with
    | none => s
    | some r =>
      if !regSeen fn r s then s
      else
        match r, n == 4 with
        | .page p 0x100, true => doorbell p fn.val val false s
        | _, true => regWrite fn r (halfWrite r (off % 8 == 4) val s) s
        | _, false => regWrite fn r val s

/-- REGISTER_WRITE (R423). -/
def execRegisterWrite (fn : Fin 25) (off n : Nat) (val : Word) (s : State) : Res := .next (settle s (barWrite fn off n val s))

end Sys2Proof.Machine
end

