-- ==== Sys2Proof/Machine/Scalar.lean ====
section
/-! DEFINITION. The scalar and predicate instructions of slots S0 and S1 and NOP (R54, R116-R124). -/

namespace Sys2Proof.Machine

/-- A scalar instruction of format REG: the function of its sources lands after `lat` (R116). -/
def alu (sl lat : Nat) (r : RegF) (f : Word → Word → Word) (s : State) : Res :=
  slotOp sl r.g (fun s => landS sl lat r.wb r.d (f (s.src r.a) (s.src r.b)) s) s

/-- A unary scalar instruction. -/
def alu1 (sl : Nat) (r : RegU) (f : Word → Word) (s : State) : Res :=
  slotOp sl r.g (fun s => landS sl 1 r.wb r.d (f (s.src r.a)) s) s

/-- SHL of R118. -/
def shlW (a b : Word) : Word := if 64 ≤ b.toNat then 0 else a <<< b.toNat
/-- SHR of R118. -/
def shrW (a b : Word) : Word := if 64 ≤ b.toNat then 0 else a >>> b.toNat
/-- SAR of R118. -/
def sarW (a b : Word) : Word :=
  if 64 ≤ b.toNat then (if a.msb then BitVec.allOnes 64 else 0) else a.sshiftRight b.toNat
/-- ROT of R118: left by n mod 64. -/
def rotW (a b : Word) : Word := a.rotateLeft (b.toNat % 64)

/-- MULH of R117. -/
def mulhW (a b : Word) : Word := BitVec.ofInt 64 (a.toInt * b.toInt / 2 ^ 64)

/-- DIV of R119. -/
def divW (a b : Word) : Word :=
  if b = 0 then BitVec.allOnes 64
  else if a = 0x8000000000000000 ∧ b = BitVec.allOnes 64 then 0x8000000000000000
  else BitVec.ofInt 64 (a.toInt.tdiv b.toInt)
/-- REM of R119. -/
def remW (a b : Word) : Word :=
  if b = 0 then a
  else if a = 0x8000000000000000 ∧ b = BitVec.allOnes 64 then 0
  else BitVec.ofInt 64 (a.toInt - b.toInt * a.toInt.tdiv b.toInt)
/-- DIVU of R119. -/
def divuW (a b : Word) : Word := if b = 0 then BitVec.allOnes 64 else BitVec.ofNat 64 (a.toNat / b.toNat)
/-- REMU of R119. -/
def remuW (a b : Word) : Word := if b = 0 then a else BitVec.ofNat 64 (a.toNat - b.toNat * (a.toNat / b.toNat))

/-- CLZ of R117. -/
def clzW (a : Word) : Word := BitVec.ofNat 64 (((List.range 64).takeWhile fun i => !a.getLsbD (63 - i)).length)
/-- POPC of R117. -/
def popcW (a : Word) : Word := BitVec.ofNat 64 ((List.range 64).filter fun i => a.getLsbD i).length

/-- Fields LO, W of a BFX or BFI control value (R122). -/
def bfLo (c : Word) : Nat := fld c.toNat 0 6
def bfW (c : Word) : Nat := fld c.toNat 8 7
/-- The control value is outside its limits (R122). -/
def bfBad (c : Word) : Bool := bfW c == 0 || decide (64 < bfW c) || decide (64 < bfLo c + bfW c)
/-- BFX of R122. -/
def bfxW (a c : Word) : Word :=
  let f := fld a.toNat (bfLo c) (bfW c)
  if c.getLsbD 16 then BitVec.ofInt 64 (sInt (bfW c) f) else BitVec.ofNat 64 f
/-- BFI of R122. -/
def bfiW (d a c : Word) : Word :=
  let m : Word := BitVec.ofNat 64 ((2 ^ bfW c - 1) * 2 ^ bfLo c)
  (d &&& ~~~m) ||| ((a <<< bfLo c) &&& m)

/-- The conditions of CMP (R121). -/
def cmpHolds : Cond → Word → Word → Bool
  | .eq, a, b => a == b
  | .ne, a, b => a != b
  | .lt, a, b => decide (a.toInt < b.toInt)
  | .le, a, b => decide (a.toInt ≤ b.toInt)
  | .gt, a, b => decide (b.toInt < a.toInt)
  | .ge, a, b => decide (b.toInt ≤ a.toInt)
  | .ltu, a, b => decide (a.toNat < b.toNat)
  | .leu, a, b => decide (a.toNat ≤ b.toNat)
  | .gtu, a, b => decide (b.toNat < a.toNat)
  | .geu, a, b => decide (b.toNat ≤ a.toNat)

/-- A predicate as a 64-bit result. -/
def boolW (b : Bool) : Word := if b then 1 else 0

/-- A result to a predicate, held zero-extended in the latches (R121, R124). -/
def landP (sl : Nat) (pd : Fin 8) (x : Bool) (s : State) : State :=
  land sl 1 (some (latchOf (boolW x))) [.p pd x] 0 s

/-- A two-source predicate instruction (R124). -/
def prd (sl : Nat) (r : PrdF) (f : Bool → Bool → Bool) (s : State) : Res :=
  slotOp sl r.g (fun s => landP sl r.pd (f (s.core.act.view.rp r.pa) (s.core.act.view.rp r.pb)) s) s

/-- NOP of any slot: no effect, whatever the guard (R54, R39). -/
def execNop (slot : Fin 7) (_g : Guard) (s : State) : Res := .next (keep s (commit slot.val s))

def execAdd (sl : ScalarSlot) (r : RegF) (s : State) : Res := alu (slotNo sl) 1 r (· + ·) s
def execSub (sl : ScalarSlot) (r : RegF) (s : State) : Res := alu (slotNo sl) 1 r (· - ·) s
def execMul (r : RegF) (s : State) : Res := alu 0 3 r (· * ·) s
def execMulh (r : RegF) (s : State) : Res := alu 0 3 r mulhW s
def execDiv (r : RegF) (s : State) : Res := alu 0 12 r divW s
def execDivu (r : RegF) (s : State) : Res := alu 0 12 r divuW s
def execRem (r : RegF) (s : State) : Res := alu 0 12 r remW s
def execRemu (r : RegF) (s : State) : Res := alu 0 12 r remuW s
def execAnd (sl : ScalarSlot) (r : RegF) (s : State) : Res := alu (slotNo sl) 1 r (· &&& ·) s
def execOr (sl : ScalarSlot) (r : RegF) (s : State) : Res := alu (slotNo sl) 1 r (· ||| ·) s
def execXor (sl : ScalarSlot) (r : RegF) (s : State) : Res := alu (slotNo sl) 1 r (· ^^^ ·) s
def execAndn (sl : ScalarSlot) (r : RegF) (s : State) : Res := alu (slotNo sl) 1 r (fun a b => a &&& ~~~b) s
def execShl (sl : ScalarSlot) (r : RegF) (s : State) : Res := alu (slotNo sl) 1 r shlW s
def execShr (sl : ScalarSlot) (r : RegF) (s : State) : Res := alu (slotNo sl) 1 r shrW s
def execSar (sl : ScalarSlot) (r : RegF) (s : State) : Res := alu (slotNo sl) 1 r sarW s
def execRot (sl : ScalarSlot) (r : RegF) (s : State) : Res := alu (slotNo sl) 1 r rotW s
def execMin (sl : ScalarSlot) (r : RegF) (s : State) : Res :=
  alu (slotNo sl) 1 r (fun a b => if a.toInt ≤ b.toInt then a else b) s
def execMax (sl : ScalarSlot) (r : RegF) (s : State) : Res :=
  alu (slotNo sl) 1 r (fun a b => if a.toInt ≤ b.toInt then b else a) s
def execMinu (sl : ScalarSlot) (r : RegF) (s : State) : Res :=
  alu (slotNo sl) 1 r (fun a b => if a.toNat ≤ b.toNat then a else b) s
def execMaxu (sl : ScalarSlot) (r : RegF) (s : State) : Res :=
  alu (slotNo sl) 1 r (fun a b => if a.toNat ≤ b.toNat then b else a) s
def execClz (sl : ScalarSlot) (r : RegU) (s : State) : Res := alu1 (slotNo sl) r clzW s
def execPopc (sl : ScalarSlot) (r : RegU) (s : State) : Res := alu1 (slotNo sl) r popcW s

/-- ADDI (R120). -/
def execAddi (sl : ScalarSlot) (r : AimF) (s : State) : Res :=
  slotOp (slotNo sl) r.g (fun s => landS (slotNo sl) 1 r.wb r.d (s.src r.a + r.imm.signExtend 64) s) s

/-- CMP (R121). -/
def execCmp (sl : ScalarSlot) (r : CmpF) (s : State) : Res :=
  slotOp (slotNo sl) r.g (fun s => landP (slotNo sl) r.pd (cmpHolds r.cond (s.src r.a) (s.src r.b)) s) s

/-- SEL (R121): it always writes DST (R42). -/
def execSel (sl : ScalarSlot) (r : SlpF) (s : State) : Res :=
  slotOp (slotNo sl) r.g (fun s =>
    landS (slotNo sl) 1 true r.d (if s.core.act.view.rp r.ps then s.sreg r.a else s.sreg r.b) s) s

/-- MOVI (R120). -/
def execMovi (sl : ScalarSlot) (r : WimF) (s : State) : Res :=
  slotOp (slotNo sl) r.g (fun s => landS (slotNo sl) 1 r.wb r.d (r.imm.signExtend 64) s) s

/-- MOVH (R120): d is read at issue even with WB = 0 (R42). -/
def execMovh (sl : ScalarSlot) (r : WimF) (s : State) : Res :=
  slotOp (slotNo sl) r.g (fun s => landS (slotNo sl) 1 r.wb r.d ((s.sreg r.d <<< 14) ||| r.imm.setWidth 64) s) s

/-- BFX (R122). -/
def execBfx (sl : ScalarSlot) (r : RegF) (s : State) : Res :=
  slotOp (slotNo sl) r.g (fun s =>
    if bfBad (s.src r.b) then trapAt (slotNo sl) 9 (s.src r.b) s
    else landS (slotNo sl) 1 r.wb r.d (bfxW (s.src r.a) (s.src r.b)) s) s

/-- BFI (R122). -/
def execBfi (sl : ScalarSlot) (r : RegF) (s : State) : Res :=
  slotOp (slotNo sl) r.g (fun s =>
    if bfBad (s.src r.b) then trapAt (slotNo sl) 9 (s.src r.b) s
    else landS (slotNo sl) 1 r.wb r.d (bfiW (s.sreg r.d) (s.src r.a) (s.src r.b)) s) s

/-- MADA (R117): d is read at issue. -/
def execMada (r : RegF) (s : State) : Res :=
  slotOp 0 r.g (fun s => landS 0 3 r.wb r.d (s.sreg r.d + s.src r.a * s.src r.b) s) s

def execPand (sl : ScalarSlot) (r : PrdF) (s : State) : Res := prd (slotNo sl) r (· && ·) s
def execPor (sl : ScalarSlot) (r : PrdF) (s : State) : Res := prd (slotNo sl) r (· || ·) s
def execPxor (sl : ScalarSlot) (r : PrdF) (s : State) : Res := prd (slotNo sl) r (· ^^ ·) s

/-- PNOT (R124). -/
def execPnot (sl : ScalarSlot) (r : PrdU) (s : State) : Res :=
  slotOp (slotNo sl) r.g (fun s => landP (slotNo sl) r.pd (!s.core.act.view.rp r.pa) s) s

end Sys2Proof.Machine
end

