-- ==== Sys2Proof/Machine/System.lean ====
section
/-! DEFINITION. SRD and SWR (R97, R99). -/

namespace Sys2Proof.Machine

/-- The value SRD reads at issue (R97, R99): TIME of the issue tick, VCYC the issue cycle. -/
def sysRead (s : State) (n : Nat) : Word :=
  let c := s.core.act
  let r := c.sys
  if n = 0x0 then s.timeW
  else if n = 0x1 then BitVec.ofNat 64 c.cyc
  else if n = 0x2 then BitVec.ofNat 64 c.frzt
  else if n = 0x3 then r.cstat
  else if n = 0x4 then c.id s.key
  else if n = 0x5 then (s.part c.part).gracecfg
  else if n = 0x8 then r.fctl
  else if n = 0x9 then r.srs
  else if n = 0x10 then r.tvec
  else if n = 0x11 then r.tmask
  else if n = 0x12 then r.epos
  else if n = 0x13 then r.ecause
  else if n = 0x14 then r.einfo
  else if n = 0x15 then r.edone
  else if n = 0x16 then r.estat
  else if n = 0x20 then r.pkey[0]
  else if n = 0x21 then r.pkey[1]
  else if n = 0x22 then r.pkey[2]
  else if n = 0x23 then r.pkey[3]
  else if n = 0x24 then r.chunk
  else r.pace

/-- SRD (R99). -/
def execSrd (r : SysF) (s : State) : Res :=
  slotOp 0 r.g (fun s => landS 0 1 true r.reg (sysRead s r.sr.val) s) s

/-- SWR (R99). -/
def execSwr (r : SysF) (s : State) : Res :=
  slotOp 0 r.g (fun s => commit 0 (s.modCtx fun c =>
    { c with bun := c.bun.map fun b => { b with swr := some (r.sr.val, s.sreg r.reg) } })) s

end Sys2Proof.Machine
end

