-- ==== Sys2Proof/Machine/VectorMove.lean ====
section
/-! DEFINITION. Permutation, broadcast, index and the moves between vector and matrix registers (R182-R186). -/

namespace Sys2Proof.Machine

/-- VPERM (R182): only the width of T matters. -/
def execVperm (r : VecF) (s : State) : Res :=
  vecOp (withV [r.a, r.b] r.d (fun vs s =>
    let w := r.t.width
    let n := 2048 / w
    landLanes 4 w (feedOf r.a ++ feedOf r.b) r.d (s.maskOf r.g) (s.core.oldV r.d)
      ((List.range n).map fun j =>
        let i := lane w (vs.getD 1 0) j
        (if n ≤ i then 0 else lane w (vs.getD 0 0) i, 0)) s)) s

/-- VBC (R183). -/
def execVbc (r : VscF) (s : State) : Res :=
  vecOp (withV [] r.d (fun _ s =>
    let w := r.t.width
    landLanes 2 w [] r.d (s.maskOf r.g) (s.core.oldV r.d)
      (List.replicate (2048 / w) ((s.src r.src).toNat % 2 ^ w, 0)) s)) s

/-- VIDX (R184). -/
def execVidx (r : VecU) (s : State) : Res :=
  elem1 2 false r (fun _ _ a => (a, 0)) (fun _ j a => a + j) s

/-- An element of an m register as a reader meets it that no MWT orders behind the tile operations that write it: what it holds, what an
operation at work writes, or what a complete one overwrote (R186). -/
def racedM (s : State) (m : Fin 8) (r c : Nat) : Nat :=
  let t := s.core.tile
  let of (x : Option (Fin 8 × BitVec 262144 × Nat)) : Option Nat :=
    x.bind fun y => if y.1 = m ∧ r < y.2.2 then some (mGet y.2.1 r c) else none
  let l := mGet t.m[m] r c :: ((t.ops.filterMap fun o => if o.done then none else of (o.eff.bind fun e => e.m)) ++
    t.past.filterMap fun p => of p.m)
  l.getD (Config.pick (s.seed + 32 * (64 * r + c)) % l.length) 0

/-- VMRD (R185): it reads at the tick of its issue. A register with an uncorrectable error takes the machine check of R27 with its number
(entry 85). -/
def execVmrd (r : VmxF) (s : State) : Res :=
  vecOp (withV [] r.v (fun _ s =>
    let idx := s.sreg r.idx
    if s.core.tile.mBad.contains r.m.m then trapAt 3 0x13 (BitVec.ofNat 64 r.m.m.val) s
    else landLanes 4 32 [] r.v (s.maskOf r.g) (s.core.oldV r.v)
      ((List.range 64).map fun i => let p := mPos r.m.dir idx i; (racedM s r.m.m p.1 p.2, 0)) { s with draws := s.draws + 8192 })) s

/-- VMWR (R185): the m register is written four cycles after issue, with an inbound f source five (R113; entry 88, DESIGN CHOICE);
nothing lands in a latch. -/
def execVmwr (r : VmxF) (s : State) : Res :=
  vecOp (withV [r.v] .none (fun vs s =>
    commit 3 (fly { due := s.core.act.cyc + feedLat 4 (feedOf r.v), cyc := s.core.act.cyc, slot := 3, latch := none,
                    writes := [.m r.m (s.sreg r.idx) (s.maskOf r.g) (vs.getD 0 0)], flags := 0, need := none,
                    refresh := none } s))) s

end Sys2Proof.Machine
end

