-- ==== Sys2Proof/Machine/Dispatch.lean ====
section
/-! DEFINITION. One arm for each operation of the opcode table. -/

namespace Sys2Proof.Machine

def exec (i : Instr) (s : State) : Host.Outcome State Fault Refusal :=
  match i with
  | .nop slot g => Sys2Proof.Machine.execNop slot g s
  | .add sl r => Sys2Proof.Machine.execAdd sl r s
  | .sub sl r => Sys2Proof.Machine.execSub sl r s
  | .addi sl r => Sys2Proof.Machine.execAddi sl r s
  | .mul r => Sys2Proof.Machine.execMul r s
  | .mulh r => Sys2Proof.Machine.execMulh r s
  | .div r => Sys2Proof.Machine.execDiv r s
  | .divu r => Sys2Proof.Machine.execDivu r s
  | .rem r => Sys2Proof.Machine.execRem r s
  | .remu r => Sys2Proof.Machine.execRemu r s
  | .and sl r => Sys2Proof.Machine.execAnd sl r s
  | .or sl r => Sys2Proof.Machine.execOr sl r s
  | .xor sl r => Sys2Proof.Machine.execXor sl r s
  | .andn sl r => Sys2Proof.Machine.execAndn sl r s
  | .shl sl r => Sys2Proof.Machine.execShl sl r s
  | .shr sl r => Sys2Proof.Machine.execShr sl r s
  | .sar sl r => Sys2Proof.Machine.execSar sl r s
  | .rot sl r => Sys2Proof.Machine.execRot sl r s
  | .min sl r => Sys2Proof.Machine.execMin sl r s
  | .max sl r => Sys2Proof.Machine.execMax sl r s
  | .minu sl r => Sys2Proof.Machine.execMinu sl r s
  | .maxu sl r => Sys2Proof.Machine.execMaxu sl r s
  | .cmp sl r => Sys2Proof.Machine.execCmp sl r s
  | .sel sl r => Sys2Proof.Machine.execSel sl r s
  | .clz sl r => Sys2Proof.Machine.execClz sl r s
  | .popc sl r => Sys2Proof.Machine.execPopc sl r s
  | .movi sl r => Sys2Proof.Machine.execMovi sl r s
  | .movh sl r => Sys2Proof.Machine.execMovh sl r s
  | .bfx sl r => Sys2Proof.Machine.execBfx sl r s
  | .bfi sl r => Sys2Proof.Machine.execBfi sl r s
  | .mada r => Sys2Proof.Machine.execMada r s
  | .pand sl r => Sys2Proof.Machine.execPand sl r s
  | .por sl r => Sys2Proof.Machine.execPor sl r s
  | .pxor sl r => Sys2Proof.Machine.execPxor sl r s
  | .pnot sl r => Sys2Proof.Machine.execPnot sl r s
  | .srd r => Sys2Proof.Machine.execSrd r s
  | .swr r => Sys2Proof.Machine.execSwr r s
  | .lds r => Sys2Proof.Machine.execLds r s
  | .sts r => Sys2Proof.Machine.execSts r s
  | .ldv r => Sys2Proof.Machine.execLdv r s
  | .stv r => Sys2Proof.Machine.execStv r s
  | .ld r => Sys2Proof.Machine.execLd r s
  | .st r => Sys2Proof.Machine.execSt r s
  | .lda r => Sys2Proof.Machine.execLda r s
  | .stl r => Sys2Proof.Machine.execStl r s
  | .atom r => Sys2Proof.Machine.execAtom r s
  | .cas r => Sys2Proof.Machine.execCas r s
  | .phase r => Sys2Proof.Machine.execPhase r s
  | .fence r => Sys2Proof.Machine.execFence r s
  | .tagl r => Sys2Proof.Machine.execTagl r s
  | .tagi r => Sys2Proof.Machine.execTagi r s
  | .tagx r => Sys2Proof.Machine.execTagx r s
  | .rgwb r => Sys2Proof.Machine.execRgwb r s
  | .vadd r => Sys2Proof.Machine.execVadd r s
  | .vsub r => Sys2Proof.Machine.execVsub r s
  | .vmul r => Sys2Proof.Machine.execVmul r s
  | .vfma r => Sys2Proof.Machine.execVfma r s
  | .vmax r => Sys2Proof.Machine.execVmax r s
  | .vmin r => Sys2Proof.Machine.execVmin r s
  | .vmaxu r => Sys2Proof.Machine.execVmaxu r s
  | .vminu r => Sys2Proof.Machine.execVminu r s
  | .vabs r => Sys2Proof.Machine.execVabs r s
  | .vneg r => Sys2Proof.Machine.execVneg r s
  | .vcmp r => Sys2Proof.Machine.execVcmp r s
  | .vcmpu r => Sys2Proof.Machine.execVcmpu r s
  | .vsel r => Sys2Proof.Machine.execVsel r s
  | .vand r => Sys2Proof.Machine.execVand r s
  | .vor r => Sys2Proof.Machine.execVor r s
  | .vxor r => Sys2Proof.Machine.execVxor r s
  | .vshl r => Sys2Proof.Machine.execVshl r s
  | .vshr r => Sys2Proof.Machine.execVshr r s
  | .vsar r => Sys2Proof.Machine.execVsar r s
  | .vcvt r => Sys2Proof.Machine.execVcvt r s
  | .vqnt r => Sys2Proof.Machine.execVqnt r s
  | .vscl r => Sys2Proof.Machine.execVscl r s
  | .vexp2 r => Sys2Proof.Machine.execVexp2 r s
  | .vrcp r => Sys2Proof.Machine.execVrcp r s
  | .vrsq r => Sys2Proof.Machine.execVrsq r s
  | .vred r => Sys2Proof.Machine.execVred r s
  | .vperm r => Sys2Proof.Machine.execVperm r s
  | .vbc r => Sys2Proof.Machine.execVbc r s
  | .vidx r => Sys2Proof.Machine.execVidx r s
  | .vmrd r => Sys2Proof.Machine.execVmrd r s
  | .vmwr r => Sys2Proof.Machine.execVmwr r s
  | .mcfg r => Sys2Proof.Machine.execMcfg r s
  | .mld r => Sys2Proof.Machine.execMld r s
  | .mst r => Sys2Proof.Machine.execMst r s
  | .mstPs r => Sys2Proof.Machine.execMstPs r s
  | .mz r => Sys2Proof.Machine.execMz r s
  | .mzPs r => Sys2Proof.Machine.execMzPs r s
  | .mta r => Sys2Proof.Machine.execMta r s
  | .mtg r => Sys2Proof.Machine.execMtg r s
  | .msca r => Sys2Proof.Machine.execMsca r s
  | .mwt r => Sys2Proof.Machine.execMwt r s
  | .mcnt r => Sys2Proof.Machine.execMcnt r s
  | .copy r => Sys2Proof.Machine.execCopy r s
  | .copyg r => Sys2Proof.Machine.execCopyg r s
  | .copys r => Sys2Proof.Machine.execCopys r s
  | .copyr r => Sys2Proof.Machine.execCopyr r s
  | .fbind r => Sys2Proof.Machine.execFbind r s
  | .fdrop r => Sys2Proof.Machine.execFdrop r s
  | .hset r => Sys2Proof.Machine.execHset r s
  | .hwait r => Sys2Proof.Machine.execHwait r s
  | .hrel r => Sys2Proof.Machine.execHrel r s
  | .qfence r => Sys2Proof.Machine.execQfence r s
  | .tenq r => Sys2Proof.Machine.execTenq r s
  | .tsig r => Sys2Proof.Machine.execTsig r s
  | .bar r => Sys2Proof.Machine.execBar r s
  | .bara r => Sys2Proof.Machine.execBara r s
  | .barw r => Sys2Proof.Machine.execBarw r s
  | .pause r => Sys2Proof.Machine.execPause r s
  | .role r => Sys2Proof.Machine.execRole r s
  | .xph r => Sys2Proof.Machine.execXph r s
  | .xsnd r => Sys2Proof.Machine.execXsnd r s
  | .xsel r => Sys2Proof.Machine.execXsel r s
  | .cst r => Sys2Proof.Machine.execCst r s
  | .cld r => Sys2Proof.Machine.execCld r s
  | .cxch r => Sys2Proof.Machine.execCxch r s
  | .pub r => Sys2Proof.Machine.execPub r s
  | .land r => Sys2Proof.Machine.execLand r s
  | .decl r => Sys2Proof.Machine.execDecl r s
  | .recl r => Sys2Proof.Machine.execRecl r s
  | .nstat r => Sys2Proof.Machine.execNstat r s
  | .cnt r => Sys2Proof.Machine.execCnt r s
  | .br r => Sys2Proof.Machine.execBr r s
  | .brp r => Sys2Proof.Machine.execBrp r s
  | .call r => Sys2Proof.Machine.execCall r s
  | .ret r => Sys2Proof.Machine.execRet r s
  | .loop r => Sys2Proof.Machine.execLoop r s
  | .lexit g => Sys2Proof.Machine.execLexit g s
  | .lix r => Sys2Proof.Machine.execLix r s
  | .endk g => Sys2Proof.Machine.execEndk g s
  | .trap r => Sys2Proof.Machine.execTrap r s
  | .eret g => Sys2Proof.Machine.execEret g s
  | .bundleIssue k => Sys2Proof.Machine.execBundleIssue k s
  | .resultLands k => Sys2Proof.Machine.execResultLands k s
  | .asyncTrapTaken k => Sys2Proof.Machine.execAsyncTrapTaken k s
  | .bringUpStep => Sys2Proof.Machine.execBringUpStep s
  | .plyctlTargetP0 p => Sys2Proof.Machine.execPlyctlTargetP0 p s
  | .plyctlTargetP1 p => Sys2Proof.Machine.execPlyctlTargetP1 p s
  | .plyctlTargetP2 p => Sys2Proof.Machine.execPlyctlTargetP2 p s
  | .plyctlTargetP3 p => Sys2Proof.Machine.execPlyctlTargetP3 p s
  | .plyTransitionDone p => Sys2Proof.Machine.execPlyTransitionDone p s
  | .autoP1Entry p => Sys2Proof.Machine.execAutoP1Entry p s
  | .powerShareLimit p exceeds => Sys2Proof.Machine.execPowerShareLimit p exceeds s
  | .activityForecast => Sys2Proof.Machine.execActivityForecast s
  | .patrolScrub at_ bad => Sys2Proof.Machine.execPatrolScrub at_ bad s
  | .placementDecision => Sys2Proof.Machine.execPlacementDecision s
  | .gangStart g => Sys2Proof.Machine.execGangStart g s
  | .graceExpiry g => Sys2Proof.Machine.execGraceExpiry g s
  | .gangSave g => Sys2Proof.Machine.execGangSave g s
  | .saveComplete g => Sys2Proof.Machine.execSaveComplete g s
  | .endDrainComplete k => Sys2Proof.Machine.execEndDrainComplete k s
  | .ctxctlResume k x => Sys2Proof.Machine.execCtxctlResume k x s
  | .ctxctlPark k x => Sys2Proof.Machine.execCtxctlPark k x s
  | .ctxctlPreempt k x => Sys2Proof.Machine.execCtxctlPreempt k x s
  | .ctxctlKill k x => Sys2Proof.Machine.execCtxctlKill k x s
  | .taskComplete p serial => Sys2Proof.Machine.execTaskComplete p serial s
  | .launchComplete p id => Sys2Proof.Machine.execLaunchComplete p id s
  | .launchDoorbell p gva whole => Sys2Proof.Machine.execLaunchDoorbell p gva whole s
  | .launchDescriptor p => Sys2Proof.Machine.execLaunchDescriptor p s
  | .taskRecordEntry p => Sys2Proof.Machine.execTaskRecordEntry p s
  | .notBeforeReached p serial => Sys2Proof.Machine.execNotBeforeReached p serial s
  | .signalAdd p sig amt ply => Sys2Proof.Machine.execSignalAdd p sig amt ply s
  | .signalWrite p sig val => Sys2Proof.Machine.execSignalWrite p sig val s
  | .reservation p => Sys2Proof.Machine.execReservation p s
  | .tenqRequest id => Sys2Proof.Machine.execTenqRequest id s
  | .tenqTimeout id => Sys2Proof.Machine.execTenqTimeout id s
  | .tenqResult id => Sys2Proof.Machine.execTenqResult id s
  | .homeSliceApply id => Sys2Proof.Machine.execHomeSliceApply id s
  | .storeAck id => Sys2Proof.Machine.execStoreAck id s
  | .loadReply id => Sys2Proof.Machine.execLoadReply id s
  | .peerAccess id => Sys2Proof.Machine.execPeerAccess id s
  | .hostPostedWrite fn off data => Sys2Proof.Machine.execHostPostedWrite fn off data s
  | .hostRead fn off n => Sys2Proof.Machine.execHostRead fn off n s
  | .hostWatermarkBeat late => Sys2Proof.Machine.execHostWatermarkBeat late s
  | .granuleFillComplete k g => Sys2Proof.Machine.execGranuleFillComplete k g s
  | .tableWalk k page => Sys2Proof.Machine.execTableWalk k page s
  | .walkRetry k page => Sys2Proof.Machine.execWalkRetry k page s
  | .mapinvcInvalidatePage p => Sys2Proof.Machine.execMapinvcInvalidatePage p s
  | .mapinvcInvalidateAll p => Sys2Proof.Machine.execMapinvcInvalidateAll p s
  | .mapinvcDrainFlush p => Sys2Proof.Machine.execMapinvcDrainFlush p s
  | .mapinvcDone p => Sys2Proof.Machine.execMapinvcDone p s
  | .faultQueueSet p size val => Sys2Proof.Machine.execFaultQueueSet p size val s
  | .fqtailWrite p val => Sys2Proof.Machine.execFqtailWrite p val s
  | .copyRelease k => Sys2Proof.Machine.execCopyRelease k s
  | .copyReadReturn k q => Sys2Proof.Machine.execCopyReadReturn k q s
  | .copyWriteAck k id => Sys2Proof.Machine.execCopyWriteAck k id s
  | .cpyctlResume k q => Sys2Proof.Machine.execCpyctlResume k q s
  | .cpyctlAbort k q => Sys2Proof.Machine.execCpyctlAbort k q s
  | .streamWindowRead k f => Sys2Proof.Machine.execStreamWindowRead k f s
  | .streamWindowWrite k f => Sys2Proof.Machine.execStreamWindowWrite k f s
  | .tileOpStart k => Sys2Proof.Machine.execTileOpStart k s
  | .tileOpComplete k => Sys2Proof.Machine.execTileOpComplete k s
  | .pauseExpiry k => Sys2Proof.Machine.execPauseExpiry k s
  | .barrierArrival g b role xph => Sys2Proof.Machine.execBarrierArrival g b role xph s
  | .railInjection id enters => Sys2Proof.Machine.execRailInjection id enters s
  | .railCapture k => Sys2Proof.Machine.execRailCapture k s
  | .clearingBeatSend => Sys2Proof.Machine.execClearingBeatSend s
  | .beatApplied id => Sys2Proof.Machine.execBeatApplied id s
  | .retransmissionRequest id station => Sys2Proof.Machine.execRetransmissionRequest id station s
  | .resyncPassStart => Sys2Proof.Machine.execResyncPassStart s
  | .resyncComplete => Sys2Proof.Machine.execResyncComplete s
  | .planctlCommit => Sys2Proof.Machine.execPlanctlCommit s
  | .planActivate => Sys2Proof.Machine.execPlanActivate s
  | .clallocWrite p val => Sys2Proof.Machine.execClallocWrite p val s
  | .noticeArrival n dst from_ => Sys2Proof.Machine.execNoticeArrival n dst from_ s
  | .releaseMessage dst block => Sys2Proof.Machine.execReleaseMessage dst block s
  | .abandon dst block pull => Sys2Proof.Machine.execAbandon dst block pull s
  | .blockOverdue k block => Sys2Proof.Machine.execBlockOverdue k block s
  | .pubTimeout k => Sys2Proof.Machine.execPubTimeout k s
  | .pullGrant k => Sys2Proof.Machine.execPullGrant k s
  | .deferralExpiry k entry => Sys2Proof.Machine.execDeferralExpiry k entry s
  | .chunkRequest k => Sys2Proof.Machine.execChunkRequest k s
  | .chunkServe r => Sys2Proof.Machine.execChunkServe r s
  | .chunkLanded id => Sys2Proof.Machine.execChunkLanded id s
  | .portEnable n => Sys2Proof.Machine.execPortEnable n s
  | .portDisable n => Sys2Proof.Machine.execPortDisable n s
  | .portTrained n nbr => Sys2Proof.Machine.execPortTrained n nbr s
  | .portDown n => Sys2Proof.Machine.execPortDown n s
  | .routeWrite n val => Sys2Proof.Machine.execRouteWrite n val s
  | .remoteRequest r => Sys2Proof.Machine.execRemoteRequest r s
  | .remoteTimeout id => Sys2Proof.Machine.execRemoteTimeout id s
  | .combineArrival port stid gva dbl v m => Sys2Proof.Machine.execCombineArrival port stid gva dbl v m s
  | .combineGroupClose id => Sys2Proof.Machine.execCombineGroupClose id s
  | .timeBeat within => Sys2Proof.Machine.execTimeBeat within s
  | .partcmdCreate p => Sys2Proof.Machine.execPartcmdCreate p s
  | .partcmdApply p => Sys2Proof.Machine.execPartcmdApply p s
  | .partcmdDestroy p => Sys2Proof.Machine.execPartcmdDestroy p s
  | .applyComplete p => Sys2Proof.Machine.execApplyComplete p s
  | .functionLevelReset p => Sys2Proof.Machine.execFunctionLevelReset p s
  | .attestationRequest p nonce => Sys2Proof.Machine.execAttestationRequest p nonce s
  | .sweeperVisit k => Sys2Proof.Machine.execSweeperVisit k s
  | .sampleRecord k => Sys2Proof.Machine.execSampleRecord k s
  | .sampleRingSet p size val => Sys2Proof.Machine.execSampleRingSet p size val s
  | .registerWrite fn off n val => Sys2Proof.Machine.execRegisterWrite fn off n val s
  | .restoreComplete g => Sys2Proof.Machine.execRestoreComplete g s

end Sys2Proof.Machine
end

