-- ==== Sys2Proof/Machine/Tick.lean ====
section
/-! DEFINITION. What the device does at the turn of a tick: TIME, meters and buckets, the engines that go on by themselves, and
the events of the new tick in their order (R13, R14, R73, and the rules that date each event; entry 1). -/

namespace Sys2Proof.Machine

/-! ### Order of the events of one tick -/

/-- Place of an event among those of its tick: rails first, what reaches the slices last but for rail captures, messages in the orders
that R347, R378 and R418 give, a write of SIGn before additions to it (R328). -/
def eventClass : Instr → Nat
  | .railInjection _ _ => 0
  | .releaseMessage _ _ | .abandon _ _ _ => 1
  | .blockOverdue _ _ => 2
  | .noticeArrival _ _ _ => 3
  | .combineArrival _ _ _ _ _ _ => 4
  | .barrierArrival _ _ _ _ => 5
  | .registerWrite _ _ _ _ | .signalWrite _ _ _ => 6
  | .homeSliceApply _ | .remoteRequest (.arrives _ _ _ _ _ _ _ _) => 8
  | .railCapture _ => 9
  | _ => 7

/-- Input port by which a request reaches its slice (R221): 0-15 from a core of the slice's ply, 16-31 over the stack-channel columns. -/
def State.slicePort (s : State) (id : Nat) : Nat :=
  match s.req? id with
  | some r => (if r.crosses s then 16 else 0) + Config.slicePort (r.key.cl.val * 100 + r.key.sl.val) (r.home s) % 16
  | none => 0

/-- Order within a class: notices by PEER, TASK, GANG, ROLE and BLOCK, combinable additions by port, arrivals by role, requests by their
slice's input port. -/
def eventKey (s : State) : Instr → Nat
  | .noticeArrival n _ _ => (((n.peer * 2 ^ 32 + n.task) * 2 ^ 5 + n.gang) * 2 ^ 7 + n.role) * 2 ^ 32 + n.block.toNat
  | .combineArrival p _ _ _ _ _ => p.val
  | .barrierArrival _ _ r _ => r.val
  | .homeSliceApply id => s.slicePort id
  | .remoteRequest (.arrives _ _ stid _ gva _ _ _) => 16 + Config.slicePort 2400 (s.stidHome stid gva) % 16
  | _ => 0

/-- Rank of a request among those of its partition at one port: a pausing context's stand last, by age (R351). -/
def eventRank (s : State) : Instr → Nat
  | .homeSliceApply id => match s.req? id with
    | some r => if s.pausing r then 1 + r.issue else 0
    | none => 0
  | _ => 0

/-- The place of an event in its tick: class, key, rank. -/
def eventPlace (s : State) (i : Instr) : List Nat := [eventClass i, eventKey s i, eventRank s i]

/-- Lexicographic order, equal lists included. -/
def listLe : List Nat → List Nat → Bool
  | a :: as, b :: bs => decide (a < b) || (a == b && listLe as bs)
  | _, _ => true

def eventOrder (s : State) (es : List Instr) : List Instr := es.sortBy fun a b => listLe (eventPlace s a) (eventPlace s b)

/-- Events that come last in a tick: held host writes are applied at its end, a station does not yet know of its beat (R240, R364), and a
PAUSE lasts through its last tick (R351). -/
def closesTick : Instr → Bool
  | .beatApplied _ | .pauseExpiry _ => true
  | _ => false

/-- Events that precede the cores' turn: a context that starts on this tick issues in it (R78, R111). -/
def opensTick : Instr → Bool
  | .gangStart _ => true
  | _ => false

/-! ### Clock-gated plies -/

/-- The core on which an event of the calendar acts. -/
def eventCore (s : State) : Instr → Option CoreKey
  | .endDrainComplete k | .granuleFillComplete k _ | .tableWalk k _ | .walkRetry k _ | .copyWriteAck k _ | .pauseExpiry k
  | .railCapture k | .pubTimeout k | .deferralExpiry k _ => some k
  | .blockOverdue k b => (((s.coreAt k).port.block? b).filter fun x => x.expires s.time).map fun _ => k
  | .storeAck id | .loadReply id => (s.req? id).map Req.key
  | .peerAccess id => (s.req? id).map Req.pad
  | .noticeArrival _ dst _ | .releaseMessage dst _ | .abandon dst _ _ | .chunkServe (.arrives _ dst _ _ _ _ _ _ _) => s.portCore dst
  | .chunkServe (.here id) => (s.chunks.find? fun x => x.id == id).bind fun x => s.portCore x.src
  | .chunkLanded id => (s.chunks.find? fun x => x.id == id).map Chunk.key
  | _ => none

/-- What reaches a core of a clock-gated ply waits, in its order, until the ply is in P0 (R16, entry 87). -/
def heldBack (s : State) (i : Instr) : Bool :=
  match eventCore s i with
  | some k => s.plies[plyOf k.cl.val].st == .p1
  | none => false

/-! ### Who acts (R429) -/

/-- Party of a host function: the partition of a VF, the device for the PF. -/
def fnParty (fn : Nat) : Nat := if fn = 0 then 24 else fn - 1

/-- Party that an operation belongs to: its free values come from that partition's count, or from the device's (entry 93). -/
def partyOf (s : State) (i : Instr) : Nat :=
  let at_ (k : CoreKey) : Nat := (s.coreAt k).act.part.val
  let of (id : Nat) : Nat := match s.req? id with | some r => r.part.val | none => 24
  let gang (g : Nat) : Nat := match s.gang? g with | some g => g.part.val | none => 24
  match i with
  | .bundleIssue k | .resultLands k | .asyncTrapTaken k | .ctxctlResume k _ | .ctxctlPark k _ | .ctxctlPreempt k _ | .ctxctlKill k _
  | .copyRelease k | .copyReadReturn k _ | .cpyctlResume k _ | .cpyctlAbort k _ | .streamWindowRead k _ | .streamWindowWrite k _
  | .tileOpStart k | .tileOpComplete k | .pullGrant k | .chunkRequest k | .sweeperVisit k | .sampleRecord k => at_ k
  | .blockOverdue k _ => at_ k
  | .homeSliceApply id | .remoteRequest (.leaves id) | .remoteTimeout id => of id
  | .remoteRequest (.arrives _ _ stid _ _ _ _ _) => match s.stidPart stid with | some p => p.val | none => 24
  | .gangStart g | .graceExpiry g | .gangSave g | .saveComplete g | .restoreComplete g | .barrierArrival g _ _ _ => gang g
  | .taskComplete p _ | .launchComplete p _ | .launchDoorbell p _ _ | .launchDescriptor p | .taskRecordEntry p | .notBeforeReached p _
  | .signalAdd p _ _ _ | .signalWrite p _ _ | .reservation p | .mapinvcInvalidatePage p | .mapinvcInvalidateAll p | .mapinvcDrainFlush p
  | .mapinvcDone p | .faultQueueSet p _ _ | .fqtailWrite p _ | .clallocWrite p _ | .partcmdCreate p | .partcmdApply p | .partcmdDestroy p
  | .applyComplete p | .functionLevelReset p | .attestationRequest p _ | .sampleRingSet p _ _ => p.val
  | .tenqRequest id | .tenqTimeout id | .tenqResult id => match s.tenqs.find? fun q => q.id == id with | some q => q.part.val | none => 24
  | .hostPostedWrite fn _ _ | .hostRead fn _ _ | .registerWrite fn _ _ _ => fnParty fn.val
  | i => match eventCore s i with | some k => at_ k | none => 24

/-! ### Cores -/

/-- The ticks that the bank conflicts of the last issue cost begin (R254): S2's access counts where it was made with the issue. -/
def Core.bankBeat (c : Core) : Core :=
  match c.act.bun with
  | none => c
  | some b =>
    let n := if b.mask.getLsbD 2 && !b.done.getLsbD 2 then b.bank.2 else b.bank.1
    if b.bank = (0, 0) then c else { c with act := { c.act with bun := some { b with bank := (0, 0) }, bankUntil := b.tick + n + 1 } }

/-- The class of tick `now` of the term engine, and the terms that its array has applied in it (R438, R441). -/
def Core.countTile (now : Nat) (c : Core) : Core :=
  let c1 := c.count 13 (c.termsNow now)
  match (tileClass c now).1 with
  | 0 => c1.count 14 1
  | 1 => c1.count 15 1
  | 2 => c1.count 16 1
  | 3 => c1.count 17 1
  | _ => c1.count 18 1

/-- Counts of tick `now`, which is over (R438, R441): a tick RUNNING, a tick of the core's own bank conflicts, and those of the term engine
while a context is resident. -/
def Core.counted (now : Nat) (c : Core) : Core :=
  if c.act.st = .empty then c
  else
    (if c.act.st = .running then (c.count 0 1).count 4 (if now < c.act.bankUntil then 1 else 0) else c).countTile now

/-- The context's bucket rises by RATE, up to 16 × SIZE (R391), and the scheduler takes up the keys (R387). -/
def Core.portBeat (c : Core) : Core :=
  if c.act.st = .empty then c
  else
    { c with port := { c.port with
      bucket := Nat.min (16 * c.act.chunkSize) (c.port.bucket + fld c.act.sys.pace.toNat 0 16)
      keys := c.act.sys.pkey.toList.map (·.toNat) } }

/-- The turn of the tick at a core: what the tick that is over counts comes first. -/
def Core.turned (now : Nat) (c : Core) : Core :=
  let c1 := (c.counted now).bankBeat
  (({ c1 with evTick := c1.ev } : Core).tileRetire).portBeat

/-- The meter of a core rises on every tick, whether or not it holds a context or its ply is clocked (R428). -/
def Core.meshRise (rate : Nat) (c : Core) : Core := { c with meshTok := c.meshTok.map fun x => Nat.min 65536 (x + rate) }

/-- CORER of the partition that owns a cluster. -/
def State.coreRate (s : State) (cl : Nat) : Nat := ((s.clusterPart cl).map fun p => fld (s.part p).meshctl.toNat 0 16).getD 0

/-- Every core at the turn of the tick; the tick that is over is still the present one. -/
def coresBeat (s : State) : State :=
  let f (k : CoreKey) (c : Core) : Core := (if s.clocked k then c.turned s.time else c).meshRise (s.coreRate k.cl.val)
  { s with core := f s.key s.core, others := s.others.map fun e => (e.1, f e.1 e.2) }

/-- The core whose engines an event of the calendar credits: an acknowledgement of a copy's write, a landed chunk. -/
def creditCore (s : State) (i : Instr) : Option CoreKey :=
  match i with
  | .copyWriteAck _ _ | .chunkLanded _ => eventCore s i
  | _ => none

/-- The queue in which an acknowledgement counts (R279). -/
def State.ackQueue (s : State) (i : Instr) : Option (Fin 4) :=
  match i with
  | .copyWriteAck _ id => (s.req? id).bind fun r => r.copyOf.map fun _ => r.queue
  | _ => none

/-- Runs `f` with each core in view that meets `p`, its partition acting. -/
def forCores (p : State → CoreKey → Bool) (f : State → State) (s : State) : State :=
  (((s.cores.map fun e => e.1).foldl (fun t k => if p t k then f ((t.focus k).asParty (t.coreAt k).act.part.val) else t) s).focus
    s.key).asParty s.party

/-- Port-engine queues go on, and CXCH results whose mirror has been rebuilt land (R311, R375, R400). -/
def enginesBeat (s : State) : State :=
  forCores (fun s k => s.clocked k && (s.coreAt k).act.replay != []) cxchReplay
    (forCores (fun s k => s.clocked k && (s.coreAt k).port.ops != []) portTick s)

/-! ### Partitions -/

/-- The meters of a partition with their rates: clusters, stack channels, canopy, and the paths to other devices (R392). -/
def meterRates (s : State) (p : Part) : List (Nat × Nat) :=
  let v := p.pullctl.toNat
  (p.clusters.map fun c => (c, fld v 16 16)) ++ [(24, fld v 32 16), (25, fld v 48 16)] ++
    s.link.routes.map fun r => (26 + r.1, fld r.2.toNat 32 16)

/-- Every meter rises by its rate, up to 16 × 4,096 (R392). -/
def Part.metersRise (rates : List (Nat × Nat)) (p : Part) : Part :=
  { p with meters := rates.map fun r => (r.1, Nat.min 65536 (lookupD p.meters r.1 0 + r.2)) }

/-- The meters of its plies' meshes rise by PLYR, and those of its cores by CORER, up to 16 × 4,096 (R428). -/
def Part.meshRise (p : Part) : Part :=
  { p with
    plyTok := (p.clusters.map (· / 2)).eraseDups.map fun y => (y, Nat.min 65536 (lookupD p.plyTok y 0 + fld p.meshctl.toNat 32 16))
    coreTok := p.clusters.map fun c => (c, Nat.min 65536 (lookupD p.coreTok c 0 + fld p.meshctl.toNat 0 16)) }

/-- Request buckets gain RREQ × SHARE ÷ 256 tokens every 64 ticks, up to 16 (R417). -/
def Part.bucketsRise (routes : List (Nat × Word)) (p : Part) : Part :=
  { p with reqbuckets := p.reqbuckets.map fun b =>
      (b.1, Nat.min 4096 (b.2 + fld (lookupD routes b.1 (0 : Word)).toNat 48 8 * fld p.reqctl.toNat 0 8)) }

/-- A partition at the turn of the tick. -/
def Part.beat (s : State) (p : Part) : Part :=
  if p.state = 0 then p
  else
    let p1 := (p.metersRise (meterRates s p)).meshRise
    if s.time % 64 = 0 then p1.bucketsRise s.link.routes else p1

/-- Ring writers, allocations that take effect and the judging of the rank, for each partition. -/
def partsBeat (s : State) : State :=
  ((List.finRange 24).foldl (fun s p =>
    let s1 := flushSamples p (flushFaults p (clallocDue p (s.asParty p.val)))
    if (s1.part p).tasks = [] then s1 else judgeTop p s1) { s with parts := s.parts.map (Part.beat s) }).asParty s.party

/-! ### Engines that go on in this tick -/

/-- A free choice: whether something of unstated duration goes on now (entry 5). -/
def goesOn (s : State) (n : Nat) : Bool := Config.goes s.time n

/-- Some partition samples its contexts on this tick (R443). -/
def samplesDue (s : State) : Bool := s.parts.toList.any fun p => bitOf p.smpctl.toNat 0 && s.time % 2 ^ fld p.smpctl.toNat 16 5 == 0

/-- Events of one core's engines. `due` are the acknowledgements and chunks that reach it: credits come in the order of the queues, the
stream units after Q3 (R279). -/
def coreEvents (s : State) (k : CoreKey) (due : List Instr) : List Instr :=
  let t := s.focus k
  let c := t.core
  let when_ (b : Bool) (e : Instr) : List Instr := if b then [e] else []
  if (c.act.st = .empty ∧ c.sby.st = .empty) ∨ s.clocked k = false then due
  else
    let rel := when_ (copyReleaseDue t) (.copyRelease k)
    let served := if goesOn s (k.cl.val * 100 + k.sl.val) then nextQueue t else none
    rel ++ ((List.finRange 4).flatMap fun q =>
      (due.filter fun e => s.ackQueue e == some q) ++ when_ (served == some q) (.copyReadReturn k q) ++ rel) ++
    ((List.finRange 8).flatMap fun f =>
      when_ (streamReadReady c f) (.streamWindowRead k f) ++ when_ (streamWriteReady c f) (.streamWindowWrite k f)) ++
    (due.filter fun e => (s.ackQueue e).isNone) ++
    [.pullGrant k] ++
    when_ (c.act.phase == .drain || c.act.phase == .drained) (.endDrainComplete k) ++
    when_ (samplesDue s) (.sampleRecord k)

/-- Events of a core's term engine that precede the cores' turn: a write belongs to T_end as a whole, and what is written from T0 on races
(R197, R198). -/
def dawnEvents (s : State) (k : CoreKey) : List Instr :=
  let c := s.coreAt k
  if c.act.st = .empty ∨ s.clocked k = false then []
  else (c.tile.ops.filterMap fun o => if o.eff.isSome ∧ o.ends ≤ s.time then some (.tileOpComplete k) else none) ++
    if c.tile.ops.any fun o => o.eff.isNone && !o.stopped then [.tileOpStart k] else []

/-- Events of the root's scheduler and of Ewester's partition steps. -/
def partEvents (s : State) (p : Fin 24) : List Instr :=
  let when_ (b : Bool) (e : Instr) : List Instr := if b then [e] else []
  ((s.cores.filter fun e => e.2.act.part == p && (e.2.act.st != .empty || e.2.sby.st != .empty)).map fun e => .chunkRequest e.1) ++
  when_ ((nextDoorbell p s).isSome && goesOn s (2400 + 2 * p.val)) (.launchDescriptor p) ++
  when_ ((nextRecord p s).isSome && goesOn s (2401 + 2 * p.val)) (.taskRecordEntry p) ++
  when_ (applyReady s p) (.applyComplete p)

/-- The sweeper's visits to every core that a partition owns (R439). -/
def sweeperEvents (s : State) : List Instr :=
  if s.time % 131072 = 0 then s.cores.map fun e => .sweeperVisit e.1 else []

/-- The save of a gang goes on; on a clock-gated ply its cores do nothing. -/
def gangEvents (s : State) (g : Gang) : List Instr :=
  if s.plies[plyOf g.cl].st = .p1 then [] else (if saveDue s g then [.gangSave g.id] else []) ++ if saveReady s g then [.saveComplete g.id] else []

/-- Events of the device as a whole. -/
def deviceEvents (s : State) : List Instr :=
  let when_ (b : Bool) (e : Instr) : List Instr := if b then [e] else []
  when_ (decide (4 < s.bringUp)) .clearingBeatSend ++
  failedBeats s ++
  when_ (s.isReady && s.slot == 0) (.hostWatermarkBeat false) ++
  when_ (s.isReady && s.slot == 32) (.hostWatermarkBeat true) ++
  when_ s.passDue .resyncPassStart ++
  when_ (s.isReady && s.time % 8 == 0) .placementDecision ++
  when_ (s.isReady && s.time % 256 == 0) .activityForecast ++
  (if s.isReady then (scrubVisits s).map fun a => .patrolScrub a (Config.upset s.seed) else []) ++
  ((List.finRange 12).filterMap fun p => if autoReady s p then some (.autoP1Entry p) else none) ++
  when_ (s.link.join && s.time % 16384 == 0)
    (.timeBeat (((List.range (neighbours s.link.pos).length).all s.portUp) || goesOn s 2448))

/-! ### The turn of the tick -/

/-- Upkeep before the cores of the tick act. -/
def tickBegins (s : State) : State :=
  let s0 := coresBeat s
  let s1 := mirrorsLost { s0 with time := s.time + 1 }
  let s2 := freeRails (grantRails s.time s1)
  let s3 := enginesBeat (forCores (fun s k => s.clocked k && ((s.coreAt k).fences != [] || (s.coreAt k).pend != [])) notedOps s2)
  let s4 := partsBeat (retireGangs (standbyDue (declineEnded s3)))
  let s5 := (s4.hostW.filter fun w => w.pend.isSome).foldl (fun s w => (retryHostWrite w (s.asParty (fnParty w.fn))).asParty 24) s4
  heldLeave (flrEnds (countIdle ((s5.link.routePend.map fun r => r.1).foldl (fun s n => routeDue n s) s5)))

/-- Cores that act in the tick, in ascending order: those with a RUNNING context on a ply that is clocked. -/
def runningCores (s : State) : List CoreKey :=
  ((s.cores.filter fun e => e.2.act.st == .running && s.clocked e.1).map fun e => e.1).sortBy CoreKey.le

/-- The next tick: upkeep, then the cores and the events that the following steps run. -/
def tick (s : State) : State :=
  let s1 := tickBegins (s.asParty 24)
  let now := s1.cal.filter fun e => decide (e.1 ≤ s1.time)
  let due := (now.filter fun e => !heldBack s1 e.2).map fun e => e.2
  let keys := s1.cores.map fun e => e.1
  let credited (e : Instr) : Bool := match creditCore s1 e with
    | some k => keys.contains k
    | none => false
  let rest := due.filter fun e => !credited e
  { s1 with
    time := s.time + 1
    dawn := keys.flatMap (dawnEvents s1) ++ rest.filter opensTick
    turn := runningCores s1
    cal := (now.filter fun e => heldBack s1 e.2) ++ s1.cal.filter fun e => !decide (e.1 ≤ s1.time)
    agenda := eventOrder s1 (rest.filter fun e => !closesTick e && !opensTick e) ++ s1.agenda ++
      (keys.flatMap fun k => coreEvents s1 k (due.filter fun e => credited e && creditCore s1 e == some k)) ++
      ((List.finRange 24).flatMap (partEvents s1)) ++ s1.gangs.flatMap (gangEvents s1) ++ sweeperEvents s1 ++ deviceEvents s1 ++
      rest.filter closesTick
    draws := s1.draws + 1 }

end Sys2Proof.Machine
end

