-- ==== Sys2Proof/Machine/Run.lean ====
section
/-! DEFINITION. One step of the device: a core's turn, an event of the tick, or the turn of the tick; and how a word is placed
where the next step fetches it (entries 1 and 2). -/

namespace Sys2Proof.Machine

/-- Runs the slots that a bundle's issue has put in front of the agenda, at most `n`. -/
def runSlots : Nat → State → Host.Outcome State Fault Refusal
  | 0, s => .next s
  | n + 1, s =>
    match s.agenda with
    | [] => .next s
    | i :: rest =>
      if isSlot i then
        match exec i { s with agenda := rest } with
        | .next t => runSlots n t
        | .fault f => .fault f
        | .refused r => .refused r
      else .next s

/-- Runs one operation and the slots that follow from it. -/
def runOne (i : Instr) (s : State) : Host.Outcome State Fault Refusal :=
  match exec i s with
  | .next t => runSlots 7 t
  | .fault f => .fault f
  | .refused r => .refused r

/-- Runs one operation for the party that it belongs to (R429). -/
def runAs (i : Instr) (s : State) : Host.Outcome State Fault Refusal := runOne i (s.asParty (partyOf s i))

/-- One step: the next event of the tick's dawn, else the next core of the turn, else the next event of the agenda, else the turn of the
tick. -/
def oneStep (s : State) : Host.Outcome State Fault Refusal :=
  match s.dawn with
  | i :: rest => runAs i { s with dawn := rest }
  | [] =>
    match s.turn with
    | k :: ks => runAs (.bundleIssue k) { s with turn := ks }
    | [] =>
      match s.agenda with
      | i :: rest => runAs i { s with agenda := rest }
      | [] => .next (settle s (tick s))

/-- The text region of a placed word: one granule at offset 0. -/
def placedText : Region := { gva := 0, size := 4096, spa := 0, refill := false, span := 0, mode := 3 }

/-- The core in view with a bundle of one slot at offset 0, ready to issue it. -/
def Core.placed (sl : Fin 7) (w : Nat) (c : Core) : Core :=
  { c with
    act := { c.act with
      st := .running, pos := 0, phase := .ready, bun := none, flights := [], snap := none, wins := [], stage := none,
      asyncQ := [], railTrap := [], replay := [], noStop := true, bankUntil := 0 }
    spm := c.spm.writes (cellsAt 0 (toBytes 8 (2 ^ (24 + sl.val) + w * 2 ^ 32)))
    spBad := c.spBad.filter fun x => decide (8 ≤ x)
    regions := ⟨⟨(c.regions.toList.map fun r => if r.spa < 4096 then Region.unused else r).set 63 placedText⟩, by simp⟩
    gran := insertK c.gran 0 .clean }

/-- The state whose next step issues the word in slot `sl` (entry 2). -/
def State.placed (sl : Fin 7) (w : Nat) (s : State) : State :=
  { s with
    core := s.core.placed sl w
    dawn := []
    turn := [s.key]
    agenda := []
    parts := s.parts.set s.core.act.part { s.parts[s.core.act.part] with throttled := false } }

end Sys2Proof.Machine
end

