-- ==== Sys2Proof/Machine/Step.lean ====
section
/-! DEFINITION. The step of the machine, and the placing of one instruction where the step fetches next. -/

namespace Sys2Proof.Machine

/-- One step (entry 1). -/
def step (s : State) : Host.Outcome State Fault Refusal := oneStep s

/-- The state with the slot word `w` of an opcode-table row where the step fetches its next instruction (entry 2). -/
def State.withFetchWord (s : State) (_nbits w : Nat) : State := s.placed (tableSlot (w % 2 ^ 32)) (w % 2 ^ 32)

end Sys2Proof.Machine
end

