-- ==== Sys2Proof/Safety.lean ====
section
/-! DEFINITION. What the statements say of a step: how a slot finishes, what it lands, what a trap leaves, the frame of a
slot instruction, and the invariant that every step keeps. -/

namespace Sys2Proof.Machine

/-- The open bundle after slot `sl` has committed (R90). -/
def Bundle.finished (sl : Nat) (b : Bundle) : Bundle := { b with done := b.done ||| (1#7 <<< sl), slots := b.slots.drop 1 }

/-- Slot `sl` has committed with the effect that `u` shows: `t` is `u` but for the marking of the slot, the standing of the
sequencer (phase, operand snapshot, owned windows, wait stage, virtual cycle, the turn it may get in this tick) and the event
counters. Every register, special register, accumulator, table, byte of scratchpad and of device memory is as in `u`. -/
def Finishes (sl : Nat) (u t : State) : Prop :=
  ∃ ph sn wi st vc ev tu,
    t = { u with turn := tu, core := { u.core with ev := ev, act := { u.core.act with
          bun := u.core.act.bun.map (Bundle.finished sl), phase := ph, snap := sn, wins := wi, stage := st, vcyc := vc } } }

/-- The instruction completes: `exec` answers a next state, in which slot `sl` has committed with the effect `u`. -/
def Completes (i : Instr) (s : State) (sl : Nat) (u : State) : Prop := ∃ t, exec i s = .next t ∧ Finishes sl u t

/-- The state with one more result in flight, due `lat` virtual cycles after the issue (R43). -/
def State.flying (s : State) (sl lat : Nat) (latch : Option Vec) (ws : List RegWrite) (flags : Word) : State :=
  s.modCtx fun c => { c with flights := c.flights ++ [
    { due := c.cyc + lat, cyc := c.cyc, slot := sl, latch := latch, writes := ws, flags := flags, need := none,
      refresh := none }] }

/-- The instruction completes with a 64-bit result for the slot's latches and, unless `wb` is false, for s register `d`. -/
def Gives (i : Instr) (s : State) (sl lat : Nat) (wb : Bool) (d : Fin 64) (x : Word) : Prop :=
  Completes i s sl (s.flying sl lat (some (x.setWidth 2048)) (if wb then [.s d x] else []) 0)

/-- The instruction completes with a truth value for the slot's latches and predicate `d`. -/
def GivesP (i : Instr) (s : State) (sl : Nat) (d : Fin 8) (x : Bool) : Prop :=
  Completes i s sl (s.flying sl 1 (some (BitVec.ofNat 2048 (b2n x))) [.p d x] 0)

/-- Causes that TMASK may deliver to the local handler: those with L in the table of R89. -/
def localCodes : List Nat := [0x04, 0x05, 0x06, 0x08, 0x09, 0x0A, 0x0B, 0x0C, 0x18]

/-- The general, predicate, mask and vector registers. -/
def RegFile.same (a b : RegFile) : Prop := a.s = b.s ∧ a.p = b.p ∧ a.k = b.k ∧ a.v = b.v

/-- Delivery to the supervisor (R95): the context is FROZEN at its position with registers, special registers, results in
flight and DONE as they were, and one record of the cause waits for the partition's fault queue. -/
structure SupervisorEntry (s t : State) (slot code : Nat) (einfo : Word) : Prop where
  frozen : t.core.act.st = .frozen
  pos : t.core.act.pos = s.core.act.pos
  bun : t.core.act.bun = s.core.act.bun
  regs : t.core.act.regs = s.core.act.regs
  sys : t.core.act.sys = s.core.act.sys
  flights : t.core.act.flights = s.core.act.flights
  bytes : ∀ a, t.rd a = s.rd a
  scratch : ∀ a, t.core.spm.read a = s.core.spm.read a
  record : ∃ r, (t.part s.core.act.part).fqwait = (s.part s.core.act.part).fqwait ++ [r] ∧
    r.cause = code ∧ r.slot = slot ∧ r.pos = BitVec.ofNat 64 s.core.act.pos ∧ r.einfo = einfo ∧
    r.ctxid = s.core.act.id s.key ∧ r.stopped = true

/-- Delivery to the local handler (R93): ESTAT.IN and LDEP, EPOS, EDONE, ECAUSE, EINFO, the trap save area, cleared latches,
no result in flight, the position at TVEC and the virtual cycle after that of the stopped bundle. -/
structure LocalEntry (s t : State) (slot code : Nat) (einfo : Word) (isAsync : Bool) : Prop where
  running : t.core.act.st = s.core.act.st
  inHandler : t.core.act.inHandler = true
  ldep : t.core.act.ldep = s.core.act.loops.length % 8
  loops : t.core.act.loops = s.core.act.loops
  epos : t.core.act.sys.epos = BitVec.ofNat 64 s.core.act.pos
  edone : ∀ b, s.core.act.bun = some b → t.core.act.sys.edone = BitVec.ofNat 64 (b.done.toNat + b.mask.toNat * 256)
  ecause : t.core.act.sys.ecause = BitVec.ofNat 64 (b2n isAsync * 2048 + slot * 256 + code)
  einfo : t.core.act.sys.einfo = einfo
  regs : t.core.act.regs.same s.core.act.regs
  latches : t.core.act.regs.lat = Vector.replicate 12 0
  withheld : t.core.act.flights = []
  saved : ∃ v, t.core.act.save = some v ∧ v.lat = s.core.act.regs.lat ∧ v.snap = some s.core.act.view ∧
    v.flights = s.core.act.flights.map fun f => { f with due := f.due - s.core.act.cyc }
  pos : t.core.act.pos = s.core.act.sys.tvec.toNat / 4 * 4
  vcyc : t.core.act.vcyc = s.core.act.cyc + 1
  bytes : ∀ a, t.rd a = s.rd a
  scratch : ∀ a, t.core.spm.read a = s.core.spm.read a

/-- A synchronous trap of slot `slot` is taken (R89, R93, R95): locally where the cause is local, TMASK enables it and no
handler runs; as a double trap where one runs; else by the supervisor. -/
def Trapped (s t : State) (slot code : Nat) (einfo : Word) : Prop :=
  if code ∈ localCodes ∧ s.core.act.sys.tmask.getLsbD code = true then
    if s.core.act.inHandler = true then SupervisorEntry s t slot 0x1F (BitVec.ofNat 64 code)
    else LocalEntry s t slot code einfo false
  else SupervisorEntry s t slot code einfo

/-- The instruction ends in a trap of its slot. -/
def Traps (i : Instr) (s : State) (slot code : Nat) (einfo : Word) : Prop :=
  ∃ t, exec i s = .next t ∧ Trapped s t slot code einfo

/-- The slot waits (R74): it has not committed, nothing it would do has happened, and the core is frozen for the tick unless
the tick is that of the issue. -/
def Waits (i : Instr) (s : State) : Prop :=
  ∃ t, exec i s = .next t ∧ t.core.act.bun = s.core.act.bun ∧ t.core.act.regs = s.core.act.regs ∧
    t.core.act.flights = s.core.act.flights ∧ t.core.act.vcyc = s.core.act.vcyc ∧ (∀ a, t.rd a = s.rd a) ∧
    (∀ a, t.core.spm.read a = s.core.spm.read a) ∧
    (∀ b, s.core.act.bun = some b →
      t.core.act.frzt = s.core.act.frzt + b2n (decide (b.tick < s.time)))

/-- Leaves the control effect `c` with the bundle, which applies it at completion (R125). -/
def State.control (s : State) (c : Ctl) : State :=
  s.modCtx fun x => { x with bun := x.bun.map fun b => { b with ctl := some c } }

/-- A register write of S6 in flight, which lands in no latch (R127, R132). -/
def State.flyingCtl (s : State) (lat : Nat) (d : Fin 64) (x : Word) : State := s.flying 6 lat none [.s d x] 0

/-- The core in view is at a bundle of header `h` and slots `is_` that nothing keeps from issuing: RUNNING, nothing due to land, no bank
conflict of the last bundle to sit out, no trap or debug stop pending, and the words in the executable range, in scratchpad and intact (R64,
R73, R94, R105). -/
structure Fetches (s : State) (h : Header) (is_ : List Instr) : Prop where
  running : s.core.act.st = .running
  ready : s.core.act.phase = .ready
  free : (s.part s.core.act.part).throttled = false ∧ s.core.act.bankUntil ≤ s.time
  replay : s.core.act.replay = []
  none_open : s.core.act.bun = none
  later : ∀ f ∈ s.core.act.flights, s.core.act.vcyc < f.due
  quiet : s.core.act.asyncQ = [] ∧ s.core.act.railTrap = []
  debug : s.core.act.dbgMet = false ∧ s.core.regsx.dbgctl.getLsbD 3 = false ∧ (s.core.regsx.dbgctl.getLsbD 2 = false ∨ h.d = false)
  range : s.core.fetchable s.core.act.pos (4 * (1 + maskCount h.mask)) = true
  filled : ∀ g ∈ gransOf s.core.act.pos (4 * (1 + maskCount h.mask)), s.core.granSt g = .clean
  intact : ∀ i < 4 * (1 + maskCount h.mask), s.core.spBad.contains (s.core.physOff (s.core.act.pos + i)) = false
  header : decodeHeader (s.core.code s.core.act.pos) = some h
  slots : decodeSlots s.core s.core.act.pos h.mask [0, 1, 2, 3, 4, 5, 6] 1 = (is_, none)

/-- The state in which the bundle at the position is open with the slots `is_` to run (R30, R90). -/
def State.opened (s : State) (h : Header) (is_ : List Instr) : State :=
  { s with core := ({ s.core with
      fetchBuf := ((s.core.fetchWordsNew h.mask).reverse ++ s.core.fetchBuf).take 4
      act := { s.core.act with
      phase := .issuing, noStop := false,
      bun := some { addr := s.core.act.pos, cyc := s.core.act.vcyc, tick := s.time, mask := h.mask, done := 0,
                    empty := h.empty.val, p := h.p, ctl := none, swr := none, slots := is_,
                    bank := (extraTicks (s.core.fetchWordsNew h.mask ++ is_.flatMap (ownWords s)),
                      extraTicks (s.core.fetchWordsNew h.mask)) } } }).count 1 1 }

/-- The windows that the sources name have been taken (R164). -/
def State.taken (s : State) (srcs : List VOp) : State := s.modCore fun c => c.useWindows (srcs.flatMap feedOf).eraseDups

/-- Latency with the exposed cycle of an inbound f source (R113). -/
def feedLatency (lat : Nat) (srcs : List VOp) : Nat := if srcs.flatMap feedOf = [] then lat else lat + 1

/-- The state after a vector instruction with the result `x`: windows taken, a window of an f destination reserved, and the
result in flight to its destination and the latches of S3 (R44, R113, R163, R164). -/
def State.givesV (s : State) (srcs : List VOp) (lat : Nat) (d : VOp) (x : Vec) (extra : List RegWrite) (flags : Word) : State :=
  let s1 := s.taken srcs
  let n := feedLatency lat srcs
  match d with
  | .v i => s1.flying 3 n (some x) (.v i x :: extra) flags
  | .f i => (s1.modCore fun c => c.reserve i).flying 3 n (some x) (.feed i (s1.core.resKey i) x :: extra) flags
  | _ => s1.flying 3 n (some x) extra flags

/-- The state with another stochastic rounding state; in modes other than RSR it is the state itself. -/
def State.redrawn (s : State) (srs : Word) : State := s.modCtx fun c => { c with sys := { c.sys with srs := srs } }

/-- The instruction completes with the result `x`, merged with `old` by the mask: element `j` is `f j` where the mask bit of its
lane is 1 (R162, R165). -/
def Merges (i : Instr) (s : State) (srcs : List VOp) (lat w : Nat) (d : VOp) (mask : Word) (f : Nat → Nat) : Prop :=
  ∃ x : Vec, Completes i s 3 (s.givesV srcs lat d x [] 0) ∧
    ∀ j < 2048 / w, lane w x j = if mask.getLsbD (w * j / 32) then f j % 2 ^ w else lane w (s.core.oldV d) j

/-- As `Merges` for a floating type: the flags and, with RSR, the new rounding state are what the elements give, no flag where the
mask is empty; lanes whose mask bit is 0 keep the old value, and `rule` holds of each element of the mask. -/
def MergesF (i : Instr) (s : State) (srcs : List VOp) (lat w : Nat) (d : VOp) (mask : Word) (rule : Nat → Nat → Prop) : Prop :=
  ∃ (x : Vec) (flags srs : Word), Completes i s 3 ((s.redrawn srs).givesV srcs lat d x [] flags) ∧
    (fctlMode s.core.act.sys.fctl ≠ .rsr → srs = s.core.act.sys.srs) ∧ ((∀ j < 64, mask.getLsbD j = false) → flags = 0) ∧
    ∀ j < 2048 / w, if mask.getLsbD (w * j / 32) then rule j (lane w x j) else lane w x j = lane w (s.core.oldV d) j

/-! ### Floating values -/

/-- The real number that a finite value is (R136). -/
noncomputable def FV.val : FV → ℝ
  | .fin s m e => (if s then -1 else 1) * m * 2 ^ e
  | _ => 0

/-- The order of values that are not NaN, the infinities outermost; −0 is not less than +0. -/
def FV.less : FV → FV → Prop
  | .inf a, .inf b => a = true ∧ b = false
  | .inf a, .fin _ _ _ => a = true
  | .fin _ _ _, .inf b => b = false
  | .fin a m e, .fin b n d => (FV.fin a m e).val < (FV.fin b n d).val
  | _, _ => False

/-- Neither value is NaN and none is less than the other; −0 equals +0. -/
def FV.same (x y : FV) : Prop := x.isNan = false ∧ y.isNan = false ∧ ¬x.less y ∧ ¬y.less x

/-- The magnitude of a value. -/
def FV.abs : FV → FV
  | .fin _ m e => .fin false m e
  | .inf _ => .inf false
  | .nan => .nan

/-- A condition of VCMP on floating values (R171). -/
def condHolds : VCond → FV → FV → Prop
  | .eq, x, y => x.same y
  | .ne, x, y => ¬x.same y
  | .lt, x, y => x.less y
  | .le, x, y => x.less y ∨ x.same y
  | .gt, x, y => y.less x
  | .ge, x, y => y.less x ∨ x.same y
  | .un, x, y => x.isNan = true ∨ y.isNan = true

/-- The exponent of the grid of the subnormals (R135). -/
def Fmt.unit (f : Fmt) : Int := 1 - f.bias - f.mb

/-- Code `c` is the value `z`, a subnormal one as the zero of its sign where FTZ is set (R136, R147). -/
def Fmt.IsCode (f : Fmt) (ftz : Bool) (z : FV) (c : Nat) : Prop :=
  match z with
  | .nan => c = f.nan
  | .inf s => c = f.inf s
  | .fin s m e =>
    let flushed : Prop := ftz = true ∧ m ≠ 0 ∧ (m : ℝ) * 2 ^ e < 2 ^ (f.unit + f.mb)
    (flushed → c = b2n s * 2 ^ (f.width - 1)) ∧
    (¬flushed → ∃ n d, f.decode c = .fin s n d ∧ (n : ℝ) * 2 ^ d = (m : ℝ) * 2 ^ e)

/-- Code `c` is the real `x`, not zero, rounded once to an IEEE format: `n` of the units of the grid that `x` has in the format, with
unbounded exponent and the subnormals on their own grid, chosen by the mode (R142; in RSR one of the two neighbours), and past the largest
finite magnitude the result of R149; FTZ applies after that (R147). -/
def Fmt.Rounded (f : Fmt) (m : RMode) (ftz : Bool) (x : ℝ) (c : Nat) : Prop :=
  ∃ (neg : Bool) (n : Nat) (u : Int), (neg = true ↔ x < 0) ∧
    let y := |x| / 2 ^ u
    let down : Prop := n ≤ y ∧ y < n + 1
    let up : Prop := y ≤ n ∧ n < y + 1
    let beyond : Prop := (f.decode (f.maxFin false)).val < n * 2 ^ u
    y < 2 ^ (f.mb + 1) ∧ (u = f.unit ∨ f.unit < u ∧ 2 ^ f.mb ≤ y) ∧
    (match m with
      | .rne => |n - y| ≤ 1 / 2 ∧ (|n - y| = 1 / 2 → n % 2 = 0)
      | .rz => down
      | .rdn => if neg then up else down
      | .rup => if neg then down else up
      | .rsr => n - 1 < y ∧ y < n + 1) ∧
    (beyond → c = match m with
      | .rne | .rsr => f.inf neg
      | .rz => f.maxFin neg
      | .rdn => if neg then f.inf true else f.maxFin false
      | .rup => if neg then f.maxFin true else f.inf false) ∧
    (¬beyond → f.IsCode ftz (.fin neg n u) c)

/-- Code `c` is x + y (R168). -/
def Fmt.Adds (f : Fmt) (m : RMode) (ftz : Bool) (x y : FV) (c : Nat) : Prop :=
  match x, y with
  | .nan, _ | _, .nan => c = f.nan
  | .inf a, .inf b => c = if a = b then f.inf a else f.nan
  | .inf a, .fin _ _ _ => c = f.inf a
  | .fin _ _ _, .inf b => c = f.inf b
  | .fin a i d, .fin b j e =>
    let sum := (FV.fin a i d).val + (FV.fin b j e).val
    (sum = 0 → c = b2n (if i = 0 ∧ j = 0 ∧ a = b then a else m == .rdn) * 2 ^ (f.width - 1)) ∧
    (sum ≠ 0 → f.Rounded m ftz sum c)

/-- Code `c` is x × y (R168): an infinity by a zero gives the canonical NaN, and a zero has the sign of the product. -/
def Fmt.Muls (f : Fmt) (m : RMode) (ftz : Bool) (x y : FV) (c : Nat) : Prop :=
  match x, y with
  | .nan, _ | _, .nan => c = f.nan
  | .inf a, .inf b => c = f.inf (a != b)
  | .inf a, .fin b i _ | .fin b i _, .inf a => c = if i = 0 then f.nan else f.inf (a != b)
  | .fin a i d, .fin b j e =>
    (i * j = 0 → c = b2n (a != b) * 2 ^ (f.width - 1)) ∧
    (i * j ≠ 0 → f.Rounded m ftz ((FV.fin a i d).val * (FV.fin b j e).val) c)

/-- Code `c` is x × y + z, rounded once (R168); `FV.mul` is the exact product, and none is an infinity by a zero. -/
def Fmt.Fmas (f : Fmt) (m : RMode) (ftz : Bool) (x y z : FV) (c : Nat) : Prop :=
  match FV.mul x y with
  | none => c = f.nan
  | some p => f.Adds m ftz p z c

/-- Code `c` is the larger, or smaller, of two values; +0 is larger than −0 (R169). -/
def Fmt.Picks (f : Fmt) (larger ftz : Bool) (x y : FV) (c : Nat) : Prop :=
  (x.isNan = true ∨ y.isNan = true → c = f.nan) ∧
  (x.isNan = false → y.isNan = false → ∃ z, (z = x ∨ z = y) ∧ f.IsCode ftz z c ∧
    (larger = true → ¬z.less x ∧ ¬z.less y) ∧ (larger = false → ¬x.less z ∧ ¬y.less z) ∧
    (x.same y → z.sign = if larger then x.sign && y.sign else x.sign || y.sign))

/-- One operation of a floating reduction on codes (R181). -/
def redJoins (op : RedOp) (f : Fmt) (m : RMode) (ftz : Bool) (a b c : Nat) : Prop :=
  match op with
  | .add => f.Adds m ftz (f.decode a) (f.decode b) c
  | .max => f.Picks true ftz (f.decode a) (f.decode b) c
  | .min => f.Picks false ftz (f.decode a) (f.decode b) c
  | .amax => f.Picks true ftz (f.decode a).abs (f.decode b).abs c

/-- What a masked element counts as in a floating reduction (R181): −0, −∞, +∞, +0. -/
def redNeutral (op : RedOp) (f : Fmt) : Nat :=
  match op with
  | .add => 2 ^ (f.width - 1)
  | .max => f.inf true
  | .min => f.inf false
  | .amax => 0

/-- The pairwise tree of R181 over 2^k leaves: the pairs of each level, by index, give the next level. -/
def PairTree (op : Nat → Nat → Nat → Prop) : Nat → (Nat → Nat) → Nat → Prop
  | 0, t, c => c = t 0
  | k + 1, t, c => ∃ u : Nat → Nat, (∀ j < 2 ^ k, op (t (2 * j)) (t (2 * j + 1)) (u j)) ∧ PairTree op k u c

/-- The vector sources and the destination of an instruction of S3 that may name feeds (R162-R164). -/
def feedForm : Instr → Option (List VOp × VOp)
  | .vadd r | .vsub r | .vmul r | .vfma r | .vmax r | .vmin r | .vmaxu r | .vminu r | .vshl r | .vshr r | .vsar r
  | .vperm r => some ([r.a, r.b], r.d)
  | .vabs r | .vneg r | .vexp2 r | .vrcp r | .vrsq r | .vidx r => some ([r.a], r.d)
  | .vsel r => some ([r.a, r.b], r.d)
  | .vand r | .vor r | .vxor r => some ([r.a, r.b], r.d)
  | .vcmp r | .vcmpu r => some ([r.a, r.b], .none)
  | .vqnt r | .vscl r => some ([r.a], r.d)
  | .vred r => some ([r.a], r.d)
  | .vbc r => some ([], r.d)
  | .vmrd r => some ([], r.v)
  | .vmwr r => some ([r.v], .none)
  | _ => none

/-- A plain or synchronising access to global memory: guard, EA (R243), size, whether it writes, scope and whether it waits as a
release point (R228, R245). -/
structure GlobalForm where
  g : Guard
  ea : Word
  size : Nat
  write : Bool
  scope : Scope
  release : Bool

/-- The global access that an instruction makes. -/
def globalForm (s : State) : Instr → Option GlobalForm
  | .ld r => some ⟨r.g, s.sreg r.base + r.off.signExtend 64 * BitVec.ofNat 64 (sizeL r.w), sizeL r.w, false, .core, false⟩
  | .st r => some ⟨r.g, s.sreg r.base + r.off.signExtend 64 * BitVec.ofNat 64 (sizeS r.w), sizeS r.w, true, .core, false⟩
  | .lda r => some ⟨r.g, s.sreg r.base + r.off.signExtend 64 * BitVec.ofNat 64 (sizeD r.dbl), sizeD r.dbl, false, r.scope, false⟩
  | .stl r => some ⟨r.g, s.sreg r.base + r.off.signExtend 64 * BitVec.ofNat 64 (sizeD r.dbl), sizeD r.dbl, true, r.scope, true⟩
  | .atom r => some ⟨r.g, s.sreg r.base, sizeD r.dbl, true, r.scope, r.ord == .rel || r.ord == .ar⟩
  | .cas r => some ⟨r.g, s.sreg r.base, sizeD r.dbl, true, r.scope, r.succ == .rel || r.succ == .ar⟩
  | _ => none

/-- A request has been sent: slot 2 has committed, the request stands among those of the device and its event in the calendar;
a load's result is in flight and waits for the reply. Registers and memory are as they were. -/
structure Sends (s t : State) (q : Req) (ev : Instr) (result : Option (Nat × List RegWrite)) : Prop where
  bun : t.core.act.bun = s.core.act.bun.map (Bundle.finished 2)
  request : t.reqs = s.reqs ++ [q]
  fresh : q.applied = false ∧ q.bad = 0 ∧ q.key = s.key ∧ q.part = s.core.act.part
  event : ∃ d, s.time < d ∧ (d, ev) ∈ t.cal
  flight : t.core.act.flights = s.core.act.flights ++ (result.map fun x =>
    { due := s.core.act.cyc + x.1, cyc := s.core.act.cyc, slot := 2, latch := none, writes := x.2, flags := 0, need := some q.id,
      refresh := none : Flight }).toList
  pending : ∃ k, t.core.toks = s.core.toks ++ [k] ∧ k.id = q.id ∧ k.store = result.isNone
  regs : t.core.act.regs = s.core.act.regs
  scratch : ∀ a, t.core.spm.read a = s.core.spm.read a
  bytes : ∀ a, t.rd a = s.rd a

/-- The first event of a request. -/
def firstEvent (q : Req) : Instr :=
  match q.kind with
  | .peerLoad _ | .peerStore _ => .peerAccess q.id
  | _ => if q.remote.isSome then .remoteRequest (.leaves q.id) else .homeSliceApply q.id

/-- Nothing keeps a tile operation from the engine queue: the hazard interval has passed and a place is free (R115, R196). -/
def tileFree (s : State) : Prop :=
  (∀ c0, s.core.act.hazard = some c0 → 4 ≤ s.core.act.cyc - c0) ∧ (s.core.tile.ops.filter fun o => o.start.isNone).length < 2

/-- The instruction completes with one more operation in the engine queue, which the hazard monitor notes (R115, R196). -/
def Enqueues (i : Instr) (s : State) (work : TileWork) : Prop :=
  Completes i s 4 (s.drawn.modCore fun c =>
    { c with tile := { c.tile with ops := c.tile.ops ++ [
        { work := work, eff := none, seq := s.newId, addr := c.act.pos, entered := s.time, start := none, finish := 0,
          stopped := false }] },
             act := { c.act with hazard := some c.act.cyc } })

/-- The tile operations (R115). -/
def isTileOp : Instr → Bool
  | .mld _ | .mst _ | .mstPs _ | .mz _ | .mzPs _ | .mta _ | .mtg _ | .msca _ => true
  | _ => false

/-- A scratchpad operand of `rows` rows of `bytes` bytes lies in the own scratchpad and is aligned (R193). -/
def padFits (s : State) (base pitch : Word) (rows bytes : Nat) : Prop :=
  (base.toNat / 2 ^ 24 % 256 = 0xFF ∨ base.toNat / 2 ^ 24 % 256 = s.core.act.role) ∧ base.toNat / 2 ^ 22 % 4 = 0 ∧
    base.toNat % 2 ^ 22 + (rows - 1) * (pitch.toNat % 2 ^ 16) + bytes ≤ 0x300000 ∧ base.toNat % 4 = 0 ∧ pitch.toNat % 4 = 0

/-- What no slot instruction changes, whatever it does: time, every byte of device memory, the line order, the other cores,
gangs, the Clearing but for what stands in a queue, routes and the host's side. -/
structure SlotFrame (s t : State) : Prop where
  time : t.time = s.time
  bytes : ∀ a, t.rd a = s.rd a
  mem : t.mem = s.mem
  lines : t.lines = s.lines
  stamp : t.stamp = s.stamp
  key : t.key = s.key
  others : t.others = s.others
  gangs : t.gangs = s.gangs
  keeper : t.clr.keeper = s.clr.keeper
  link : t.link = s.link
  chunks : t.chunks = s.chunks
  host : t.hostW = s.hostW ∧ t.hostN = s.hostN ∧ t.hostMark = s.hostMark ∧ t.out = s.out
  ready : t.isReady = s.isReady ∧ t.bringUp = s.bringUp

/-- The guard of an instruction of a slot other than S3 (R37); NOP ignores its guard, S3 has masks and events have none. -/
def guardOf : Instr → Option Guard
  | .add _ r | .sub _ r | .and _ r | .or _ r | .xor _ r | .andn _ r | .shl _ r | .shr _ r | .sar _ r | .rot _ r
  | .min _ r | .max _ r | .minu _ r | .maxu _ r | .bfx _ r | .bfi _ r => some r.g
  | .mul r | .mulh r | .div r | .divu r | .rem r | .remu r | .mada r | .tenq r | .cxch r | .land r => some r.g
  | .addi _ r => some r.g
  | .cmp _ r => some r.g
  | .sel _ r => some r.g
  | .clz _ r | .popc _ r => some r.g
  | .movi _ r | .movh _ r => some r.g
  | .pand _ r | .por _ r | .pxor _ r => some r.g
  | .pnot _ r => some r.g
  | .srd r | .swr r => some r.g
  | .lds r | .ld r => some r.g
  | .sts r | .st r => some r.g
  | .ldv r => some r.g
  | .stv r => some r.g
  | .lda r | .stl r => some r.g
  | .atom r => some r.g
  | .cas r => some r.g
  | .phase r | .fence r => some r.g
  | .tagl r | .mcnt r | .role r | .cld r | .pub r | .nstat r | .cnt r => some r.g
  | .tagi r | .copy r | .copyg r | .copys r | .copyr r | .tsig r | .cst r => some r.g
  | .tagx r | .rgwb r | .decl r | .recl r => some r.g
  | .mcfg r => some r.g
  | .mld r | .mst r => some r.g
  | .mstPs r => some r.g
  | .mz r => some r.g
  | .mzPs r => some r.g
  | .mta r => some r.g
  | .mtg r => some r.g
  | .msca r => some r.g
  | .mwt r => some r.g
  | .fbind r => some r.g
  | .fdrop r => some r.g
  | .hset r => some r.g
  | .hwait r => some r.g
  | .hrel r => some r.g
  | .qfence r => some r.g
  | .bar r | .bara r | .xph r => some r.g
  | .barw r => some r.g
  | .pause r | .trap r => some r.g
  | .xsnd r | .xsel r => some r.g
  | .br r | .call r => some r.g
  | .brp r | .ret r => some r.g
  | .loop r => some r.g
  | .lexit g | .endk g | .eret g => some g
  | .lix r => some r.g
  | _ => none

/-- The invariant of every step: device memory in its canonical form, with nothing written and not yet entered. -/
def State.sound (s : State) : Prop := s.mem.wf = true ∧ s.wrote = []

/-- The event, or the instruction, answers a next state with `P`. -/
def Yields (i : Instr) (s : State) (P : State → Prop) : Prop := ∃ t, exec i s = .next t ∧ P t

/-- Addresses of the table entries' bytes that a walk of `va` reads, the entries as their home slices hold them (R264). -/
def State.tableBytes (s : State) (pn : Fin 24) (va : Nat) : List Nat :=
  let entry (a : Nat) : Nat := ofBytes (s.rdN a 8)
  let a1 := fld (s.part pn).maproot.toNat 16 24 * 65536 + 8 * fld va 40 12
  let a2 := entryAddr (entry a1) + 8 * fld va 28 12
  let a3 := if bitOf (entry a2) 2 then a2 else entryAddr (entry a2) + 8 * fld va 16 12
  [a1, a2, a3].flatMap fun a => (List.range 8).map fun j => a + j

/-- The walk of `va` finds the same whichever value of a line it reads (R223) and whatever is stored at `wr`. -/
def State.firm (s : State) (pn : Fin 24) (va : Nat) (wr : List Nat) : Prop :=
  ∀ a ∈ s.tableBytes pn va, a ∉ wr ∧ ∀ c ∈ s.lpddr, c.1 ≠ a

/-- Words of pad that a record of `len` words needs before it (R444). -/
def Part.ringPad (p : Part) (len : Nat) : Nat :=
  if 2 ^ p.smplog < p.smphead % 2 ^ p.smplog + len then 2 ^ p.smplog - p.smphead % 2 ^ p.smplog else 0

/-- GVA of the word that the sample ring holds `i` words after HEAD (R444). -/
def Part.ringGva (p : Part) (i : Nat) : Word := p.smpbase + BitVec.ofNat 64 (8 * ((p.smphead + i) % 2 ^ p.smplog))

/-- The words of a sample record, its header first (R443). -/
def State.sampleWords (s : State) : List Nat :=
  let cls := tileClass s.core s.time
  [sampleHeader 1 4 (s.part s.core.act.part).smplost, s.time, (s.core.act.id s.key).toNat,
    cls.1 * 2 ^ 61 + frozenSlot s.core.act * 2 ^ 58 + cls.2 % 2 ^ 22 * 2 ^ 36 + s.core.act.pos % 2 ^ 22]

/-- Event `e` stands in the calendar of `t` for a later tick than that of `s`. -/
def Ahead (s t : State) (e : Instr) : Prop := ∃ d, s.time < d ∧ (d, e) ∈ t.cal

/-- Slot `sl` has committed; registers, special registers and memories stand. -/
structure SlotDone (sl : Nat) (s t : State) : Prop where
  bun : t.core.act.bun = s.core.act.bun.map (Bundle.finished sl)
  regs : t.core.act.regs = s.core.act.regs
  sys : t.core.act.sys = s.core.act.sys
  bytes : ∀ a, t.rd a = s.rd a
  scratch : ∀ a, t.core.spm.read a = s.core.spm.read a

/-- The state after an acquire point at .stand (R229). -/
def State.acquired (s : State) : State := s.modCtx fun c => c.refresh ⟨.stand, s.stamp⟩

/-- The core in view reads `n` bytes of its scratchpad at `a` (R198, R225): those that stand there where the term engine has nothing in
hand or uncovered, else byte for byte those or a racing one; only free values are used up. -/
structure LooksAt (s : State) (a n : Nat) (u : State) (bs : List Byte) : Prop where
  state : u = { s with draws := u.draws }
  length : bs.length = n
  quiet : s.core.tile.ops = [] → s.core.tile.past = [] → u = s ∧ bs = (List.range n).map fun i => s.core.spm.read (s.core.physOff (a + i))
  raced : ∀ i < n, ∀ b, bs[i]? = some b → b = s.core.spm.read (s.core.physOff (a + i)) ∨ b ∈ s.core.racedByte unfenced (a + i)

/-- A descriptor lies in the own scratchpad (R304). -/
def descFits (s : State) (a : Word) : Prop :=
  (a.toNat / 2 ^ 24 % 256 = 0xFF ∨ a.toNat / 2 ^ 24 % 256 = s.core.act.role) ∧ a.toNat / 2 ^ 22 % 4 = 0 ∧
    a.toNat % 2 ^ 22 ≤ 0x2FFFC0

/-- The state with one more operation in the queue of the port engine (R311, R400). -/
def State.queued (s : State) (op : PortOp) : State :=
  s.drawn.modCore fun c => { c with port := { c.port with ops := c.port.ops ++ [(s.newId, op)] } }

/-- A Clearing address word that the checks of R372 pass, for the allocation of the partition. -/
def clearingFits (a : Word) (atomic : Bool) : Prop :=
  a.toNat / 2 ^ 31 = 0 ∧ a.toNat / 2 ^ 25 % 8 = 0 ∧ a.getLsbD 23 = false ∧ a.toNat / 2 ^ 28 % 8 ≠ 7 ∧
    (atomic = false → a.toNat / 2 ^ 28 % 8 = 0)

/-- The partition has one more record waiting for its fault queue, of this cause. -/
def Recorded (s t : State) (p : Fin 24) (cause : Nat) : Prop :=
  ∃ r, (t.part p).fqwait = (s.part p).fqwait ++ [r] ∧ r.cause = cause

/-- A notice of another device is declined: the release message waits while the routing entry of that device does, and leaves where one of
its ports is up (R378, R409, R411). -/
def refusedAway (s t : State) (n : Notice) (src : PortName) : Prop :=
  let one := n.block.getLsbD 0
  let m : Out := .release n.peer src.task src.gang src.role n.block
  if s.routeWaits n.peer = true then t.link.held = s.link.held ++ [.away n.peer one m] ∧ t.out = s.out
  else t.link = s.link ∧ t.out = s.out ++ (if s.pathUp n.peer one = true then [m] else [])

/-- The core of a member (R337). -/
def memberKey (g : Gang) (m : Member) : CoreKey := ⟨Fin.ofNat 24 g.cl, Fin.ofNat 100 m.sl⟩

end Sys2Proof.Machine
end

