-- ==== Sys2Proof/Certificates/Slice0/Obligations.lean ====
section
/-! DEFINITION. The statements for the provers. -/

open Sys2Proof Sys2Proof.Machine

/-! ### Decoding, stepping, reset -/

/-- R36, R49, R54-R62, R39: words written out from the encodings, each in the class of its slot, and words whose reserved
fields or codes make them illegal there. -/
def Obligations.SpecWordsDecode : Prop :=
  (decodeSlot 0 0x0611A0D8 = some (.addi .s0 ⟨⟨false, 0⟩, true, 6, .l 1, 0x58⟩) ∧
  decodeSlot 1 0x2C0C8257 = some (.cmp .s1 ⟨⟨false, 0⟩, .ltu, 2, .s 4, .imm 7⟩) ∧
  decodeSlot 1 0x2E0C824A = some (.sel .s1 ⟨⟨false, 0⟩, 3, 8, 9, 10⟩) ∧
  decodeSlot 0 0x400000D1 = some (.pand .s0 ⟨⟨false, 0⟩, 3, 2, 1⟩) ∧
  decodeSlot 0 0x60020000 = some (.srd ⟨⟨false, 0⟩, 4, 0⟩) ∧
  decodeSlot 6 0x021FFFFD = some (.br ⟨⟨false, 0⟩, 0x1FFFFD⟩) ∧
  decodeSlot 6 0x2200002A = some (.trap ⟨⟨false, 0⟩, 0x2A⟩) ∧
  decodeSlot 6 0x24000000 = some (.eret ⟨false, 0⟩) ∧
  decodeSlot 6 0x14061000 = some (.lix ⟨⟨false, 0⟩, 12, 1⟩) ∧
  (∀ sl, decodeSlot sl 0 = some (.nop sl ⟨false, 0⟩)) ∧
  (∀ sl w, decodeSlot sl (0x01000000 + (w % 2 ^ 21) + (w / 2 ^ 21 % 2 ^ 7) * 2 ^ 25) = some (.nop sl ⟨true, 0⟩))) ∧
  (decodeSlot 1 0x08000000 = none ∧ decodeSlot 0 0x00000001 = none ∧ decodeSlot 0 0x3E000000 = none ∧
  decodeSlot 0 0x30000001 = none ∧ decodeSlot 0 0x2C140000 = none ∧ decodeSlot 2 0x82000001 = none ∧
  decodeSlot 3 0x02000003 = none ∧ decodeSlot 5 0x20000100 = none ∧ decodeSlot 6 0x10000000 = none ∧
  decodeSlot 6 0x14006000 = none ∧ (∀ w, decodeHeader (0x00000001 + w % 2 ^ 11 * 2 ^ 21) = none))

/-- Tier 3: the decoder reads every well-formed slot instruction back from its own word, with every operand. -/
def Obligations.DecodeOfEncode : Prop :=
  ∀ (i : Instr) (sl : Fin 7) (w : Nat), i.wf = true → i.slot? = some sl → encode i = some w → decodeSlot sl w = some i

/-- Tier 3: a legal slot word that is not a never-executing word is the encoding of the instruction it decodes to, so that no bit is left
unread; what the decoder answers is well-formed and stands in the slot it was read for. -/
def Obligations.EncodeOfDecode : Prop :=
  (∀ (sl : Fin 7) (w : Nat) (i : Instr), w < 2 ^ 32 → decodeSlot sl w = some i → fld w 21 4 ≠ 8 → encode i = some w) ∧
  (∀ (sl : Fin 7) (w : Nat) (i : Instr), decodeSlot sl w = some i → i.wf = true ∧ i.slot? = some sl)

/-- A step in the turn of a core whose position holds a bundle of one slot runs that slot's instruction on the opened bundle, its partition
acting. -/
def Obligations.StepRunsDecodedInstruction : Prop :=
  ∀ (s : State) (ks : List CoreKey) (h : Header) (i : Instr), s.sound → s.dawn = [] → s.turn = s.key :: ks → s.agenda = [] →
    Fetches s h [i] →
    step s = match exec i ((({ s with turn := ks } : State).asParty s.core.act.part.val).opened h [i]) with
      | .next t => runSlots 6 t
      | .fault f => .fault f
      | .refused r => .refused r

/-- A step runs the next event that precedes the cores' turn, else the next core's turn, else the next event of the tick, and the slots that
it opens, the party that the operation belongs to acting; with nothing left it is the turn of the tick: TIME rises by one (R13), and the
cores that get a turn are those RUNNING on a ply in P0 (R16). -/
def Obligations.StepRunsEventsAndTicks : Prop :=
  (∀ (s u : State) (i : Instr),
    ((∃ rest, s.dawn = i :: rest ∧ u = { s with dawn := rest }) ∨
     (∃ k ks, s.dawn = [] ∧ s.turn = k :: ks ∧ i = .bundleIssue k ∧ u = { s with turn := ks }) ∨
     (∃ rest, s.dawn = [] ∧ s.turn = [] ∧ s.agenda = i :: rest ∧ u = { s with agenda := rest })) →
    step s = match exec i (u.asParty (partyOf s i)) with
      | .next t => runSlots 7 t
      | .fault f => .fault f
      | .refused r => .refused r) ∧
  (∀ (s : State), s.dawn = [] → s.turn = [] → s.agenda = [] →
    ∃ t, step s = .next t ∧ t.time = s.time + 1 ∧
      (∀ k, k ∈ t.turn ↔ ∃ c, (k, c) ∈ t.cores ∧ c.act.st = .running ∧ (t.plies[plyOf k.cl.val]).st = .p0))

/-- R13, R18, R23, R77, R97, R191, R260, R276, R408, R409, R413, R425: what Reset leaves. PACE is 0 in the registers of a context before its
fresh start sets RATE to the partition's CAP (R391). -/
def Obligations.ResetState : Prop :=
  let s := State.reset
  s.time = 0 ∧ s.isReady = false ∧
  (∀ p : Fin 12, (s.plies[p]).st = .p3 ∧ (s.plies[p]).target = .p3 ∧ (s.plies[p]).auto = false ∧ (s.plies[p]).err = false) ∧
  (∀ k, (s.coreAt k).act.st = .empty ∧ (s.coreAt k).sby.st = .empty ∧
    (∀ h : Fin 256, ((s.coreAt k).handles[h]).st = .free ∧ ((s.coreAt k).handles[h]).ph = false) ∧
    (∀ r : Fin 64, ((s.coreAt k).regions[r]).mode = 0) ∧ (s.coreAt k).tile.greg[5] = 0x7F7F ∧
    (s.coreAt k).tags = [] ∧ (s.coreAt k).copies = []) ∧
  (∀ p : Fin 24, (s.part p).state = 0 ∧ (s.part p).gracecfg = 0x100000 ∧ (s.part p).fqlog = 6 ∧ (s.part p).smplog = 9 ∧
    (s.part p).schctl = 0x10140100) ∧
  fld s.link.standcfg.toNat 0 12 = 4095 ∧ s.link.join = false ∧ (∀ n, lookupD s.link.routes n (0 : Word) = 0) ∧
  SysRegs.fresh.srs = 0x9E3779B9 ∧ SysRegs.fresh.pkey = #v[1, 2, 5, 0] ∧ SysRegs.fresh.chunk = 1024 ∧ SysRegs.fresh.pace = 0

/-- The invariant holds at reset. -/
def Obligations.ResetIsSound : Prop :=
  State.reset.sound

/-- Tier 3: every step keeps device memory in its canonical form, with nothing written and not entered. -/
def Obligations.EveryStepKeepsMemorySound : Prop :=
  ∀ s t : State, s.sound → step s = .next t → t.sound

/-- Whatever a slot instruction does, it leaves time, the bytes of device memory, the order of the lines, the other
cores, the gangs, the keeper copy, the link and the host's side as they were: those change by events alone, what DECL sends included, which
its port engine sends on a later tick (R400). -/
def Obligations.SlotInstructionsTouchOnlyTheirCore : Prop :=
  ∀ (i : Instr) (s t : State), i.slot?.isSome = true → exec i s = .next t → SlotFrame s t

/-- Every operation of the table answers a next state, in every state: the machine refuses none and nothing stops it. -/
def Obligations.EveryOperationCompletes : Prop :=
  ∀ (i : Instr) (s : State), ∃ t, exec i s = .next t

/-! ### Operands and landing -/

/-- R40, R11, R37, R38, R54, R39: scalar sources, guards and masks as they are read; with a false guard a slot outside S3 commits and does
nothing; NOP, and so a never-executing word, has no effect. -/
def Obligations.OperandsAndGuards : Prop :=
  (∀ (s : State),
    (∀ i : Fin 64, s.src (.s i) = if i = 0 then 0 else s.core.act.view.s[i]) ∧
    (∀ n : Fin 12, s.src (.l n) = (s.core.act.view.lat[n]).setWidth 64) ∧
    (∀ v : BitVec 4, (s.src (.imm v)).toInt = v.toInt) ∧
    (∀ g : Guard, s.guard g = ((if g.idx = 0 then true else s.core.act.view.p.getLsbD g.idx.val) ^^ g.neg)) ∧
    (∀ g : Guard, ∀ j < 64, (s.maskOf g).getLsbD j =
      ((if g.idx = 0 then true else (s.core.act.view.k[g.idx]).getLsbD j) ^^ g.neg))) ∧
  (∀ (i : Instr) (s : State) (sl : Fin 7) (g : Guard),
    i.slot? = some sl → guardOf i = some g → s.guard g = false → Completes i s sl s) ∧
  (∀ (sl : Fin 7) (g : Guard) (s : State), Completes (.nop sl g) s sl s)

/-- R42, R43, R44, R45, R46, R164, R185: a landing result shifts its slot's latches and writes its register, but for s0, p0 and k0, its
outbound window or its elements of an m register, and nothing else; of several results of one slot in one cycle the last two issued remain
in the latches; two that land on one register in one cycle set CSTAT.WWC and leave the later-issued, or higher-slot, one. RESULT_LANDS lands
the results due at the virtual cycle of a core that goes on, after a system register write due then (R99). That two discarded writes, and
two VMWRs of one element, set no WWC is the model's choice (entry 96, DESIGN CHOICE). -/
def Obligations.ResultsLand : Prop :=
  (∀ (c : Core) (f : Flight) (prior : List (Nat × RegWrite)), f.slot < 6 → f.refresh = none →
    let t := landFlight f prior c
    (∀ n : Fin 12, t.act.regs.lat[n] = match f.latch with
      | none => c.act.regs.lat[n]
      | some y => if n.val = 2 * f.slot then y
        else if n.val = 2 * f.slot + 1 then c.act.regs.lat[(⟨2 * f.slot % 12, by omega⟩ : Fin 12)] else c.act.regs.lat[n]) ∧
    t.act.sys.fctl = c.act.sys.fctl ||| f.flags ∧ t.act.pos = c.act.pos ∧ t.act.loops = c.act.loops ∧
    ((∀ p ∈ prior, p.1 < f.due) → t.act.sys = { c.act.sys with fctl := c.act.sys.fctl ||| f.flags }) ∧
    t.spm = c.spm ∧ t.handles = c.handles ∧ t.tile.ps = c.tile.ps ∧ t.tile.greg = c.tile.greg) ∧
  (∀ (c : Core) (f : Flight) (prior : List (Nat × RegWrite)), f.refresh = none →
    let t := landFlight f prior c
    let keeps (u : RegFile) : Prop := t.feeds = c.feeds ∧ t.tile = c.tile ∧ t.act.regs.same u
    let r := c.act.regs
    (f.writes = [] → keeps r) ∧
    (∀ i x, f.writes = [.s i x] → keeps (if i = 0 then r else { r with s := r.s.set i x })) ∧
    (∀ i x, f.writes = [.k i x] → keeps (if i = 0 then r else { r with k := r.k.set i x })) ∧
    (∀ i x, f.writes = [.v i x] → keeps { r with v := r.v.set i x }) ∧
    (∀ i x, f.writes = [.p i x] → t.feeds = c.feeds ∧ t.tile = c.tile ∧ t.act.regs.s = r.s ∧ t.act.regs.k = r.k ∧ t.act.regs.v = r.v ∧
      ∀ j : Fin 8, t.act.regs.p.getLsbD j.val = if j = i ∧ i ≠ 0 then x else r.p.getLsbD j.val) ∧
    (∀ o key x fd, f.writes = [.feed o key x] → c.feeds[o] = some fd → t.tile = c.tile ∧ t.act.regs.same r ∧
      t.feeds = c.feeds.set o (some { fd with
        res := fd.res.map fun q => if q.1 * 2 ^ 32 + q.2.1 = key then (q.1, q.2.1, some x) else q })) ∧
    (∀ o idx mask x, f.writes = [.m o idx mask x] → t.feeds = c.feeds ∧ t.act.regs.same r ∧
      ∀ n : Fin 8, t.tile.m[n] = if n = o.m then mWrite c.tile.m[o.m] o.dir idx mask x else c.tile.m[n])) ∧
  (∀ (c : Core) (f : Flight) (prior : List (Nat × RegWrite)) (w : RegWrite), f.writes = [w] → f.refresh = none →
    let one (a b : RegWrite) : Prop := match a, b with
      | .s i _, .s j _ => i = j ∧ j ≠ 0
      | .p i _, .p j _ => i = j ∧ j ≠ 0
      | .k i _, .k j _ => i = j ∧ j ≠ 0
      | .v i _, .v j _ => i = j
      | _, _ => False
    let t := (landFlight f prior c).act.sys.cstat
    ((∃ q, (f.due, q) ∈ prior ∧ one q w) → t = c.act.sys.cstat ||| 1) ∧
    ((∀ q, (f.due, q) ∈ prior → ¬one q w) → t = c.act.sys.cstat)) ∧
  (∀ (c : Core) (fs : List Flight) (f g : Flight) (x y : Vec) (prior : List (Nat × RegWrite)), f.slot = g.slot → f.latch = some x →
    g.latch = some y → f.slot < 6 →
    let t := (landFlights (fs ++ [f, g]) prior c).act.regs
    t.lat[(⟨2 * f.slot % 12, by omega⟩ : Fin 12)] = y ∧ t.lat[(⟨(2 * f.slot + 1) % 12, by omega⟩ : Fin 12)] = x) ∧
  (∀ (c : Core) (fs : List Flight) (g : Flight) (prior : List (Nat × RegWrite)),
    let t := (landFlights (fs ++ [g]) prior c).act.regs
    (∀ i x, g.writes = [.s i x] → i ≠ 0 → t.s[i] = x) ∧ (∀ i x, g.writes = [.k i x] → i ≠ 0 → t.k[i] = x) ∧
    (∀ i x, g.writes = [.v i x] → t.v[i] = x) ∧ (∀ (i : Fin 8) x, g.writes = [.p i x] → i ≠ 0 → t.p.getLsbD i.val = x)) ∧
  (∀ f g : Flight, f.due < g.due ∨ (f.due = g.due ∧ (f.cyc < g.cyc ∨ (f.cyc = g.cyc ∧ f.slot < g.slot))) →
    sortFlights [f, g] = [f, g] ∧ sortFlights [g, f] = [f, g]) ∧
  (∀ (s : State), s.sound → s.core.act.st = .running → s.core.act.phase ≠ .issuing →
    (∀ f ∈ s.core.act.flights, f.due ≤ s.core.act.vcyc → f.need = none) →
    let c := s.core.takeSwr s.time (s.part s.core.act.part).cap
    ∃ t, exec (.resultLands s.key) s = .next t ∧
      t.core = landFlights s.core.act.dueNow [] { c with act := { c.act with
        flights := s.core.act.flights.filter fun f => decide (s.core.act.vcyc < f.due) } } ∧
      (∀ f ∈ t.core.act.flights, s.core.act.vcyc < f.due) ∧ t.time = s.time ∧ (∀ a, t.rd a = s.rd a))

/-! ### Scalar, predicate and system register instructions -/

/-- R117, R118, R112: the two-source scalar instructions give their function of the sources after their latency. -/
def Obligations.ScalarTwoSourceResults : Prop :=
  ∀ (s : State) (sl : ScalarSlot) (r : RegF), s.guard r.g = true →
    let a := s.src r.a
    let b := s.src r.b
    let n := slotNo sl
    Gives (.add sl r) s n 1 r.wb r.d (a + b) ∧ Gives (.sub sl r) s n 1 r.wb r.d (a - b) ∧
    Gives (.mul r) s 0 3 r.wb r.d (a * b) ∧
    Gives (.mulh r) s 0 3 r.wb r.d (BitVec.ofInt 64 (a.toInt * b.toInt / 2 ^ 64)) ∧
    Gives (.and sl r) s n 1 r.wb r.d (a &&& b) ∧ Gives (.or sl r) s n 1 r.wb r.d (a ||| b) ∧
    Gives (.xor sl r) s n 1 r.wb r.d (a ^^^ b) ∧ Gives (.andn sl r) s n 1 r.wb r.d (a &&& ~~~b) ∧
    Gives (.shl sl r) s n 1 r.wb r.d (if b.toNat < 64 then a <<< b.toNat else 0) ∧
    Gives (.shr sl r) s n 1 r.wb r.d (if b.toNat < 64 then a >>> b.toNat else 0) ∧
    Gives (.sar sl r) s n 1 r.wb r.d
      (if b.toNat < 64 then a.sshiftRight b.toNat else if a.getLsbD 63 then BitVec.allOnes 64 else 0) ∧
    Gives (.rot sl r) s n 1 r.wb r.d (a <<< (b.toNat % 64) ||| a >>> (64 - b.toNat % 64)) ∧
    Gives (.min sl r) s n 1 r.wb r.d (if b.toInt < a.toInt then b else a) ∧
    Gives (.max sl r) s n 1 r.wb r.d (if b.toInt < a.toInt then a else b) ∧
    Gives (.minu sl r) s n 1 r.wb r.d (if b.toNat < a.toNat then b else a) ∧
    Gives (.maxu sl r) s n 1 r.wb r.d (if b.toNat < a.toNat then a else b) ∧
    Gives (.mada r) s 0 3 r.wb r.d (s.sreg r.d + a * b)

/-- R119: division truncates toward zero, its corners have fixed results, and quotient and remainder give the dividend back. -/
def Obligations.DivisionResults : Prop :=
  ∀ (s : State) (r : RegF), s.guard r.g = true →
    let a := s.src r.a
    let b := s.src r.b
    (b = 0 → Gives (.div r) s 0 12 r.wb r.d (BitVec.allOnes 64) ∧ Gives (.rem r) s 0 12 r.wb r.d a ∧
      Gives (.divu r) s 0 12 r.wb r.d (BitVec.allOnes 64) ∧ Gives (.remu r) s 0 12 r.wb r.d a) ∧
    (a.toInt = -2 ^ 63 → b.toInt = -1 → Gives (.div r) s 0 12 r.wb r.d a ∧ Gives (.rem r) s 0 12 r.wb r.d 0) ∧
    (b ≠ 0 → ¬(a.toInt = -2 ^ 63 ∧ b.toInt = -1) → ∃ q m : Word, Gives (.div r) s 0 12 r.wb r.d q ∧
      Gives (.rem r) s 0 12 r.wb r.d m ∧ q.toInt = a.toInt.tdiv b.toInt ∧ m.toInt = a.toInt.tmod b.toInt) ∧
    (b ≠ 0 → ∃ q m : Word, Gives (.divu r) s 0 12 r.wb r.d q ∧ Gives (.remu r) s 0 12 r.wb r.d m ∧
      a.toNat = b.toNat * q.toNat + m.toNat ∧ m.toNat < b.toNat)

/-- R117, R120, R121, R124: immediates, counts, comparisons, selection and the predicate instructions. -/
def Obligations.ScalarOtherResults : Prop :=
  (∀ (s : State) (sl : ScalarSlot),
    (∀ r : AimF, s.guard r.g = true → Gives (.addi sl r) s (slotNo sl) 1 r.wb r.d (s.src r.a + r.imm.signExtend 64)) ∧
    (∀ r : WimF, s.guard r.g = true → Gives (.movi sl r) s (slotNo sl) 1 r.wb r.d (r.imm.signExtend 64) ∧
      Gives (.movh sl r) s (slotNo sl) 1 r.wb r.d (BitVec.ofNat 64 ((s.sreg r.d).toNat * 2 ^ 14 + r.imm.toNat))) ∧
    (∀ r : RegU, s.guard r.g = true → ∃ n, n ≤ 64 ∧ (∀ i < n, (s.src r.a).getLsbD (63 - i) = false) ∧
      (n < 64 → (s.src r.a).getLsbD (63 - n) = true) ∧ Gives (.clz sl r) s (slotNo sl) 1 r.wb r.d (BitVec.ofNat 64 n)) ∧
    (∀ r : RegU, s.guard r.g = true → Gives (.popc sl r) s (slotNo sl) 1 r.wb r.d
      (BitVec.ofNat 64 ((List.range 64).countP fun i => (s.src r.a).getLsbD i))) ∧
    (∀ r : SlpF, s.guard r.g = true → Gives (.sel sl r) s (slotNo sl) 1 true r.d
      (if s.guard ⟨false, r.ps⟩ then s.sreg r.a else s.sreg r.b)) ∧
    (∀ r : CmpF, s.guard r.g = true → GivesP (.cmp sl r) s (slotNo sl) r.pd
      (let a := s.src r.a
       let b := s.src r.b
       match r.cond with
       | .eq => a == b | .ne => a != b | .lt => a.slt b | .le => a.sle b | .gt => b.slt a | .ge => b.sle a
       | .ltu => a.ult b | .leu => a.ule b | .gtu => b.ult a | .geu => b.ule a))) ∧
  (∀ (s : State) (sl : ScalarSlot),
    (∀ r : PrdF, s.guard r.g = true →
      GivesP (.pand sl r) s (slotNo sl) r.pd (s.guard ⟨false, r.pa⟩ && s.guard ⟨false, r.pb⟩) ∧
      GivesP (.por sl r) s (slotNo sl) r.pd (s.guard ⟨false, r.pa⟩ || s.guard ⟨false, r.pb⟩) ∧
      GivesP (.pxor sl r) s (slotNo sl) r.pd (s.guard ⟨false, r.pa⟩ ^^ s.guard ⟨false, r.pb⟩)) ∧
    (∀ r : PrdU, s.guard r.g = true → GivesP (.pnot sl r) s (slotNo sl) r.pd (!s.guard ⟨false, r.pa⟩)))

/-- R122: BFX and BFI act on W bits from bit LO, and outside the limits take the operand range trap. -/
def Obligations.BitFieldInstructions : Prop :=
  ∀ (s : State) (sl : ScalarSlot) (r : RegF), s.guard r.g = true →
    let a := s.src r.a
    let c := s.src r.b
    let lo := c.toNat % 64
    let w := c.toNat / 256 % 128
    if w = 0 ∨ 64 < w ∨ 64 < lo + w then Traps (.bfx sl r) s (slotNo sl) 9 c ∧ Traps (.bfi sl r) s (slotNo sl) 9 c
    else
      (∃ x : Word, Gives (.bfx sl r) s (slotNo sl) 1 r.wb r.d x ∧
        (∀ j < 64, x.getLsbD j = if j < w then a.getLsbD (lo + j) else c.getLsbD 16 && a.getLsbD (lo + w - 1))) ∧
      (∃ x : Word, Gives (.bfi sl r) s (slotNo sl) 1 r.wb r.d x ∧
        (∀ j < 64, x.getLsbD j = if lo ≤ j ∧ j < lo + w then a.getLsbD (j - lo) else (s.sreg r.d).getLsbD j))

/-- R97, R98, R99, R144, R146, R387, R390, R391: SRD gives the register named as of the issue tick; SWR commits and leaves its write with
the bundle, which takes effect field by field: what is RO keeps its value, W1C bits clear, EDONE ORs into DONE, a field keeps its value
where the new one breaks its limits, PACE stays within CAP, and a change of CHUNK.MODE clears NLOG. -/
def Obligations.SystemRegisters : Prop :=
  (∀ (s : State) (r : SysF), s.guard r.g = true →
    let c := s.core.act
    let gives (n : Nat) (x : Word) : Prop := r.sr.val = n → Gives (.srd r) s 0 1 true r.reg x
    gives 0x0 (BitVec.ofNat 64 s.time) ∧ (∀ b, c.bun = some b → gives 0x1 (BitVec.ofNat 64 b.cyc)) ∧
    gives 0x2 (BitVec.ofNat 64 c.frzt) ∧ gives 0x3 c.sys.cstat ∧ gives 0x4 (c.id s.key) ∧
    gives 0x5 (s.part c.part).gracecfg ∧ gives 0x8 c.sys.fctl ∧ gives 0x9 c.sys.srs ∧ gives 0x10 c.sys.tvec ∧
    gives 0x11 c.sys.tmask ∧ gives 0x12 c.sys.epos ∧ gives 0x13 c.sys.ecause ∧ gives 0x14 c.sys.einfo ∧
    gives 0x15 c.sys.edone ∧ gives 0x16 c.sys.estat ∧ gives 0x20 c.sys.pkey[0] ∧ gives 0x21 c.sys.pkey[1] ∧
    gives 0x22 c.sys.pkey[2] ∧ gives 0x23 c.sys.pkey[3] ∧ gives 0x24 c.sys.chunk ∧ gives 0x25 c.sys.pace) ∧
  (∀ (s : State) (r : SysF), s.guard r.g = true →
    Completes (.swr r) s 0 (s.modCtx fun c => { c with bun := c.bun.map fun b =>
      { b with swr := some (r.sr.val, s.sreg r.reg) } })) ∧
  (∀ (r : SysRegs) (cap n : Nat) (x : Word),
    let t := r.write cap n x
    (n ∈ [0x0, 0x1, 0x2, 0x4, 0x5, 0x16] → t = r) ∧ t.estat = r.estat ∧
    (n = 0x3 → t = { r with cstat := t.cstat } ∧ ∀ j < 64, t.cstat.getLsbD j =
      (r.cstat.getLsbD j && !(x.getLsbD j && (j == 0 || j == 7)))) ∧
    (n = 0x10 → t = { r with tvec := t.tvec } ∧ ∀ j < 64, t.tvec.getLsbD j = (x.getLsbD j && decide (2 ≤ j))) ∧
    (n = 0x11 → t = { r with tmask := t.tmask } ∧ ∀ j ∈ [1, 2, 3, 0x10, 0x11, 0x12, 0x13, 0x14, 0x1F, 0x20], t.tmask.getLsbD j = false) ∧
    (n = 0x11 → ∀ j ∈ localCodes, t.tmask.getLsbD j = x.getLsbD j) ∧
    (n = 0x12 → t = { r with epos := x }) ∧ (n = 0x14 → t = { r with einfo := x }) ∧
    (n = 0x13 → t = { r with ecause := t.ecause } ∧ ∀ j < 64, t.ecause.getLsbD j = (x.getLsbD j && decide (j < 12))) ∧
    (n = 0x15 → t = { r with edone := t.edone } ∧
      ∀ j < 64, t.edone.getLsbD j = (r.edone.getLsbD j || (x.getLsbD j && decide (j < 7)))) ∧
    (n = 0x8 → t = { r with fctl := t.fctl } ∧ ∀ j < 64, t.fctl.getLsbD j =
      if 8 ≤ j ∧ j ≤ 12 then r.fctl.getLsbD j && !x.getLsbD j
      else if 2 ≤ j ∧ j ≤ 4 then (if 5 ≤ x.toNat / 4 % 8 then r.fctl.getLsbD j else x.getLsbD j)
      else decide (j < 2) && x.getLsbD j) ∧
    (n = 0x9 → t = { r with srs := t.srs } ∧ ∀ j < 64, t.srs.getLsbD j = (x.getLsbD j && decide (j ≤ 32))) ∧
    (∀ k : Fin 4, n = 0x20 + k.val → t = { r with pkey := r.pkey.set k t.pkey[k] } ∧ t.pkey[k].toNat / 8 % 2 = x.toNat / 8 % 2 ∧
      t.pkey[k].toNat % 8 = (if x.toNat % 8 = 7 then r.pkey[k].toNat % 8 else x.toNat % 8) ∧ t.pkey[k].toNat < 16) ∧
    (n = 0x24 → t = { r with chunk := t.chunk } ∧
      let size := x.toNat % 2 ^ 13
      let log := x.toNat / 2 ^ 32 % 2 ^ 22
      let mode := x.toNat / 2 ^ 62
      let old := r.chunk.toNat
      t.chunk.toNat % 2 ^ 13 = (if 256 ≤ size ∧ size ≤ 4096 ∧ size % 256 = 0 then size else old % 2 ^ 13) ∧
      t.chunk.toNat / 2 ^ 32 % 2 ^ 22 = (if log % 64 = 0 ∧ log + 16384 ≤ 0x300000 then log else old / 2 ^ 32 % 2 ^ 22) ∧
      t.chunk.toNat / 2 ^ 62 = (if mode = 3 then old / 2 ^ 62 else mode) ∧
      t.chunk.toNat / 2 ^ 14 % 2 ^ 11 = if mode ≠ 3 ∧ mode ≠ old / 2 ^ 62 then 0 else old / 2 ^ 14 % 2 ^ 11) ∧
    (n = 0x25 → t = { r with pace := t.pace } ∧ t.pace.toNat = if cap < x.toNat % 2 ^ 16 then cap else x.toNat % 2 ^ 16))

/-! ### Control -/

/-- R127, R128, R100, R101, R102, R341: BR and CALL go to the bundle address + 4 × OFF, BRP and RET to the source, CALL also puts the return
address in s63, in no latch; END closes the exchange phase; ERET outside a handler takes trap 0x03; TRAP commits first. The control
effect stands with the bundle until it completes. -/
def Obligations.BranchesAndEnds : Prop :=
  (∀ (s : State) (b : Bundle), s.core.act.bun = some b →
    let a := BitVec.ofNat 64 s.core.act.pos
    (∀ r : JmpF, s.guard r.g = true →
      Completes (.br r) s 6 (s.control (.goto (a + r.off.signExtend 64 * 4) 0)) ∧
      Completes (.call r) s 6
        ((s.flyingCtl (1 + b.empty) 63 (a + BitVec.ofNat 64 (4 * (1 + maskCount b.mask)))).control
          (.goto (a + r.off.signExtend 64 * 4) 1))) ∧
    (∀ r : IndF, s.guard r.g = true →
      Completes (.brp r) s 6 (s.control (.goto (s.src r.src) 0)) ∧
      Completes (.ret r) s 6 (s.control (.goto (s.src r.src) 2)))) ∧
  (∀ (s : State) (b : Bundle), s.core.act.bun = some b →
    (∀ g, s.guard g = true →
      Completes (.endk g) s 6 ((s.modCtx fun c => { c with epoch := none, broken := false }).control .fin) ∧
      (s.core.act.inHandler = true → Completes (.eret g) s 6 (s.control .eret)) ∧
      (s.core.act.inHandler = false → Traps (.eret g) s 6 3 0)) ∧
    (∀ r : ImtF, s.guard r.g = true →
      ∃ u t, exec (.trap r) s = .next t ∧ Finishes 6 s u ∧ Trapped u t 6 4 (r.imm.setWidth 64)))

/-- R129, R131, R132, R133: LOOP, LEXIT and LIX with their traps; the overflow check counts every entry, the underflow checks
the visible ones. -/
def Obligations.LoopInstructions : Prop :=
  ∀ (s : State) (b : Bundle), s.core.act.bun = some b →
    let a := s.core.act.pos
    let next := a + 4 * (1 + maskCount b.mask)
    let depth := if s.core.act.inHandler then s.core.act.loops.length - s.core.act.ldep else s.core.act.loops.length
    (a < 2 ^ 22 → ∀ r : LpfF, s.guard r.g = true →
      if s.core.act.loops.length = 6 then Traps (.loop r) s 6 5 0
      else if a + 4 * r.fin.toNat < next then Traps (.loop r) s 6 9 (r.fin.setWidth 64)
      else if s.src r.cnt = 0 then Completes (.loop r) s 6 (s.control (.skip (BitVec.ofNat 64 (a + 4 * r.fin.toNat))))
      else Completes (.loop r) s 6 (s.control (.push ⟨0, s.src r.cnt, BitVec.ofNat 64 next,
        BitVec.ofNat 64 (a + 4 * r.fin.toNat)⟩))) ∧
    (∀ g, s.guard g = true →
      if depth = 0 then Traps (.lexit g) s 6 6 0 else Completes (.lexit g) s 6 (s.control .leave)) ∧
    (∀ r : LxfF, s.guard r.g = true →
      if depth ≤ r.lv.val then Traps (.lix r) s 6 6 0
      else ∃ l, s.core.act.loops[r.lv.val]? = some l ∧ Completes (.lix r) s 6 (s.flyingCtl 1 r.d l.index))

/-- R125, R101, R102, R129, R130, R131: what a completing bundle does with its control effect (a LOOP of count 0 and LEXIT go on behind the
end bundle, whose header they read, ERET goes back as HandlerEntryAndReturn states), and loop-end processing, which goes back to the first
innermost entry that ends there and has trips left, and drops those that are done. -/
def Obligations.CompletionAppliesControl : Prop :=
  (∀ (s : State) (b : Bundle),
    (∀ t k, b.ctl = some (.goto t k) → (complete b s).core.act.pos = t.toNat ∧
      (complete b s).core.act.loops = s.core.act.loops ∧ (complete b s).core.act.phase = .ready) ∧
    (∀ l, b.ctl = some (.push l) → (complete b s).core.act.pos = l.start.toNat ∧
      (complete b s).core.act.loops = l :: s.core.act.loops) ∧
    (b.ctl = some .fin → (complete b s).core.act.loops = [] ∧ (complete b s).core.act.phase = .drain ∧
      (complete b s).core.act.asyncQ = [] ∧ (complete b s).core.act.st = s.core.act.st) ∧
    (let readable (e : Nat) : Prop := s.core.fetchable e 4 = true ∧ (∀ g ∈ gransOf e 4, s.core.granSt g = .clean) ∧
        ∀ i < 4, s.core.spBad.contains (s.core.physOff (e + i)) = false
     let behind (e : Nat) : Nat := e + 4 * (1 + maskCount (BitVec.ofNat 7 (s.core.code e / 2 ^ 24)))
     (∀ e, b.ctl = some (.skip e) → readable e.toNat → (complete b s).core.act.pos = behind e.toNat ∧
       (complete b s).core.act.loops = s.core.act.loops ∧ (complete b s).core.act.phase = .ready) ∧
     (∀ l ls, b.ctl = some .leave → s.core.act.loops = l :: ls → readable l.fin.toNat →
       (complete b s).core.act.pos = behind l.fin.toNat ∧ (complete b s).core.act.loops = ls ∧ (complete b s).core.act.phase = .ready)) ∧
    (b.ctl = some .eret → complete b s = s.modCtx (returnFromTrap s.time)) ∧
    (b.ctl = none → (∀ l ∈ s.core.act.loops, l.fin.toNat ≠ b.addr) →
      (complete b s).core.act.pos = b.addr + 4 * (1 + maskCount b.mask) ∧
      (complete b s).core.act.loops = s.core.act.loops)) ∧
  (∀ (a n : Nat) (l : Loop) (ls : List Loop) (m : Bool),
    (l.fin.toNat ≠ a → loopEnd a (n + 1) (l :: ls) m = (l :: ls, none, m)) ∧
    (l.fin.toNat = a → (l.index + 1).toNat < l.count.toNat →
      loopEnd a (n + 1) (l :: ls) m = ({ l with index := l.index + 1 } :: ls, some l.start, true)) ∧
    (l.fin.toNat = a → ¬(l.index + 1).toNat < l.count.toNat → loopEnd a (n + 1) (l :: ls) m = loopEnd a n ls true) ∧
    loopEnd a 0 (l :: ls) m = (l :: ls, none, m))

/-- R93, R94, R101: the asynchronous trap of an overdue block goes to the handler that TMASK enables, with the block id and nothing
committed by it, or else to the supervisor; ERET gives back the interrupted code's latches, results in flight with their remaining
latencies, loop depth and stop state, and the registers the handler wrote stay. That ECAUSE.SLOT is 5 there (entry 62, DEDUCED), and that
results of the handler still in flight at ERET go on (entry 61, DEDUCED), are the model's choices. -/
def Obligations.HandlerEntryAndReturn : Prop :=
  (∀ (s : State) (b : Bundle) (x : Word) (rest : List Word),
    s.core.act.st = .running → s.core.act.phase = .issuing → s.core.act.bun = some b → b.done = 0 →
    s.core.act.asyncQ = x :: rest → s.core.act.inHandler = false → s.sound →
    ∃ t, exec (.asyncTrapTaken s.key) s = .next t ∧ t.core.act.asyncQ = rest ∧
      (if s.core.act.sys.tmask.getLsbD 0x18 = true then LocalEntry s t 5 0x18 x true
       else t.core.act.st = .frozen ∧ ∃ r, (t.part s.core.act.part).fqwait = (s.part s.core.act.part).fqwait ++ [r] ∧
         r.cause = 0x18 ∧ r.einfo = x ∧ r.pos = BitVec.ofNat 64 s.core.act.pos)) ∧
  (∀ (c : Ctx) (v : TrapSave) (b : Bundle) (now : Nat), c.save = some v → v.bun = some b → b.addr = c.sys.epos.toNat →
    let t := returnFromTrap now c
    t.inHandler = false ∧ t.loops = c.loops.drop (c.loops.length - c.ldep) ∧ t.regs.same c.regs ∧ t.regs.lat = v.lat ∧
    t.flights = c.flights ++ v.flights.map (fun f => { f with due := f.due + c.vcyc }) ∧ t.pos = c.sys.epos.toNat ∧
    t.phase = .issuing ∧ t.snap = v.snap ∧ t.save = none ∧
    ∃ b', t.bun = some b' ∧ b'.cyc = c.vcyc ∧ b'.mask = b.mask ∧
      b'.done = BitVec.ofNat 7 (c.sys.edone.toNat % 128) &&& b.mask ∧
      (∀ i ∈ b'.slots, i ∈ b.slots ∧ ∀ n, i.slot? = some n → (BitVec.ofNat 7 (c.sys.edone.toNat % 128)).getLsbD n.val = false))

/-- R30, R33, R73, R74, R90, R94, R446: a bundle that nothing keeps from issuing is opened at the virtual cycle of the core with its slots
next to run; a throttled core, and one whose last bundle has bank conflicts (R254), spends a frozen tick; a debug stop, then an illegal
header, stop the context. -/
def Obligations.BundleIssue : Prop :=
  (∀ (s : State) (h : Header) (is_ : List Instr), s.sound → Fetches s h is_ →
    ∃ t, exec (.bundleIssue s.key) s = .next t ∧ t.core.act.regs = s.core.act.regs ∧ (∀ a, t.rd a = s.rd a) ∧
      (is_ ≠ [] → t = { s.opened h is_ with agenda := is_ ++ s.agenda }) ∧
      (is_ = [] → t.core.act.phase = .gap ∧ t.core.act.vcyc = s.core.act.vcyc + 1 ∧ t.core.act.pos = s.core.act.pos)) ∧
  (∀ (s : State), s.sound → s.core.act.st = .running →
    ((s.part s.core.act.part).throttled = true → s.core.act.phase ≠ .boundary →
      ∃ t, exec (.bundleIssue s.key) s = .next t ∧ t.core.act.frzt = s.core.act.frzt + 1 ∧
        t.core.act.vcyc = s.core.act.vcyc ∧ t.core.act.pos = s.core.act.pos ∧ t.core.act.regs = s.core.act.regs) ∧
    (s.core.act.phase ≠ .boundary → s.core.act.phase ≠ .issuing → s.time < s.core.act.bankUntil →
      ∃ t, exec (.bundleIssue s.key) s = .next t ∧ t.core.act.frzt = s.core.act.frzt + 1 ∧
        t.core.act.vcyc = s.core.act.vcyc ∧ t.core.act.pos = s.core.act.pos ∧ t.core.act.regs = s.core.act.regs) ∧
    ((s.part s.core.act.part).throttled = false → s.core.act.replay = [] → s.core.act.phase = .ready → s.core.act.bankUntil ≤ s.time →
      s.core.act.bun = none → (∀ f ∈ s.core.act.flights, s.core.act.vcyc < f.due) → s.core.fetchable s.core.act.pos 4 = true →
      (∀ g ∈ gransOf s.core.act.pos 4, s.core.granSt g = .clean) →
      (∀ i < 4, s.core.spBad.contains (s.core.physOff (s.core.act.pos + i)) = false) →
      let w := s.core.code s.core.act.pos
      let stop := s.core.regsx.dbgctl.getLsbD 3 || (s.core.regsx.dbgctl.getLsbD 2 && bitOf w 31)
      (s.core.act.noStop = false → stop = true → ∃ t, exec (.bundleIssue s.key) s = .next t ∧ t.core.act.st = .frozen ∧
        ∃ r, (t.part s.core.act.part).fqwait = (s.part s.core.act.part).fqwait ++ [r] ∧ r.cause = 0x20 ∧
          r.einfo = BitVec.ofNat 64 s.core.act.pos) ∧
      (stop = false → s.core.act.dbgMet = false → decodeHeader w = none → ∃ t, exec (.bundleIssue s.key) s = .next t ∧ t.core.act.st = .frozen ∧
        ∃ r, (t.part s.core.act.part).fqwait = (s.part s.core.act.part).fqwait ++ [r] ∧ r.cause = 1 ∧
          r.einfo = BitVec.ofNat 64 w)))

/-! ### Vector instructions -/

/-- R168, R169, R174 on integer types: element by element, merged with the destination by the mask; the sources are registers,
latches or windows that are there. -/
def Obligations.VectorIntegerResults : Prop :=
  ∀ (s : State) (r : VecF) (a b : Vec), r.t.isInt = true → s.core.readV r.a = .val a → s.core.readV r.b = .val b →
    s.core.dstReady r.d = .ok →
    let w := r.t.width
    let m (i : Instr) (lat : Nat) (f : Nat → Nat → Nat → Nat) : Prop :=
      Merges i s [r.a, r.b] lat w r.d (s.maskOf r.g) fun j => f (lane w a j) (lane w b j) (lane w (s.core.oldV r.d) j)
    m (.vadd r) 4 (fun x y _ => x + y) ∧ m (.vsub r) 4 (fun x y _ => x + 2 ^ w - y) ∧ m (.vmul r) 4 (fun x y _ => x * y) ∧
    m (.vfma r) 4 (fun x y z => x * y + z) ∧
    m (.vmax r) 4 (fun x y _ => if sInt w y < sInt w x then x else y) ∧
    m (.vmin r) 4 (fun x y _ => if sInt w y < sInt w x then y else x) ∧
    m (.vmaxu r) 4 (fun x y _ => if y < x then x else y) ∧ m (.vminu r) 4 (fun x y _ => if y < x then y else x) ∧
    m (.vshl r) 2 (fun x y _ => if y < w then x * 2 ^ y else 0) ∧ m (.vshr r) 2 (fun x y _ => if y < w then x / 2 ^ y else 0) ∧
    m (.vsar r) 2 (fun x y _ => ((sInt w x / 2 ^ Nat.min y w) % 2 ^ w).toNat)

/-- R142, R147, R149, R168, R169, R170, R180 on floating types: each element of VADD, VSUB, VMUL and VFMA is the exact result rounded once,
with the cases of NaN, infinities and zeros, VMAX and VMIN give the larger and the smaller value, VRCP, VRSQ and VEXP2 of an integer are
rounded once too, with the table of R180; DAZ applies to operands and FTZ to results; the lanes that the mask leaves out keep the
destination, and an empty mask sets no flag. VABS and VNEG change the sign bit alone. The sign of a zero product of a zero and a nonzero
value is the model's choice (entry 88, DESIGN CHOICE). -/
def Obligations.VectorFloatResults : Prop :=
  ∀ (s : State) (a b : Vec) (f : Fmt),
    let m := fctlMode s.core.act.sys.fctl
    let ftz := s.core.act.sys.fctl.getLsbD 0
    let value (c : Nat) : FV := f.read (s.core.act.sys.fctl.getLsbD 1) c
    (∀ r : VecF, fmtOf r.t = some f → s.core.readV r.a = .val a → s.core.readV r.b = .val b → s.core.dstReady r.d = .ok →
      let w := r.t.width
      let x (j : Nat) : FV := value (lane w a j)
      let y (j : Nat) : FV := value (lane w b j)
      let z (j : Nat) : FV := value (lane w (s.core.oldV r.d) j)
      let merges (i : Instr) (rule : Nat → Nat → Prop) : Prop := MergesF i s [r.a, r.b] 4 w r.d (s.maskOf r.g) rule
      merges (.vadd r) (fun j c => f.Adds m ftz (x j) (y j) c) ∧ merges (.vsub r) (fun j c => f.Adds m ftz (x j) (y j).neg c) ∧
      merges (.vmul r) (fun j c => f.Muls m ftz (x j) (y j) c) ∧ merges (.vfma r) (fun j c => f.Fmas m ftz (x j) (y j) (z j) c) ∧
      merges (.vmax r) (fun j c => f.Picks true ftz (x j) (y j) c) ∧ merges (.vmin r) (fun j c => f.Picks false ftz (x j) (y j) c)) ∧
    (∀ r : VecU, fmtOf r.t = some f → s.core.readV r.a = .val a → s.core.dstReady r.d = .ok →
      let w := r.t.width
      let x (j : Nat) : FV := value (lane w a j)
      let merges (i : Instr) (n : Nat) (rule : Nat → Nat → Prop) : Prop := MergesF i s [r.a] n w r.d (s.maskOf r.g) rule
      merges (.vexp2 r) 6 (fun j c => match x j with
        | .nan => c = f.nan
        | .inf neg => c = if neg then 0 else f.inf false
        | .fin _ _ _ => ∀ k : Int, (x j).val = k → f.Rounded m ftz (2 ^ k) c) ∧
      merges (.vrcp r) 6 (fun j c => match x j with
        | .nan => c = f.nan
        | .inf neg => c = b2n neg * 2 ^ (w - 1)
        | .fin neg n _ => if n = 0 then c = f.inf neg else f.Rounded m ftz (1 / (x j).val) c) ∧
      merges (.vrsq r) 6 (fun j c => match x j with
        | .nan => c = f.nan
        | .inf neg => c = if neg then f.nan else 0
        | .fin neg n _ => if n = 0 then c = f.inf neg else if neg then c = f.nan else f.Rounded m ftz (1 / Real.sqrt (x j).val) c) ∧
      merges (.vabs r) 4 (fun j c => c = if (f.decode (lane w a j)).isNan then f.nan else lane w a j % 2 ^ (w - 1)) ∧
      merges (.vneg r) 4 (fun j c => c = if (f.decode (lane w a j)).isNan then f.nan else (lane w a j + 2 ^ (w - 1)) % 2 ^ w))

/-- R170, R172, R173, R182, R183, R184: integer VABS and VNEG, selection, logic, permutation, broadcast and index. -/
def Obligations.VectorMoveResults : Prop :=
  ∀ (s : State) (a b : Vec),
    (∀ r : VecU, r.t.isInt = true → s.core.readV r.a = .val a → s.core.dstReady r.d = .ok →
      let w := r.t.width
      Merges (.vabs r) s [r.a] 4 w r.d (s.maskOf r.g) (fun j => (sInt w (lane w a j)).natAbs) ∧
      Merges (.vneg r) s [r.a] 4 w r.d (s.maskOf r.g) (fun j => 2 ^ w - lane w a j) ∧
      Merges (.vidx r) s [r.a] 2 w r.d (s.maskOf r.g) (fun j => lane w a j + j)) ∧
    (∀ r : VecS, s.core.readV r.a = .val a → s.core.readV r.b = .val b → s.core.dstReady r.d = .ok →
      Merges (.vsel r) s [r.a, r.b] 2 32 r.d (s.maskOf r.g)
        (fun j => if (s.maskOf ⟨false, r.m⟩).getLsbD j then lane 32 a j else lane 32 b j)) ∧
    (∀ r : VecL, s.core.readV r.a = .val a → s.core.readV r.b = .val b → s.core.dstReady r.d = .ok →
      Merges (.vand r) s [r.a, r.b] 2 32 r.d (s.maskOf r.g) (fun j => lane 32 (a &&& b) j) ∧
      Merges (.vor r) s [r.a, r.b] 2 32 r.d (s.maskOf r.g) (fun j => lane 32 (a ||| b) j) ∧
      Merges (.vxor r) s [r.a, r.b] 2 32 r.d (s.maskOf r.g) (fun j => lane 32 (a ^^^ b) j)) ∧
    (∀ r : VecF, s.core.readV r.a = .val a → s.core.readV r.b = .val b → s.core.dstReady r.d = .ok →
      let w := r.t.width
      Merges (.vperm r) s [r.a, r.b] 4 w r.d (s.maskOf r.g)
        (fun j => if lane w b j < 2048 / w then lane w a (lane w b j) else 0)) ∧
    (∀ r : VscF, s.core.dstReady r.d = .ok →
      Merges (.vbc r) s [] 2 r.t.width r.d (s.maskOf r.g) (fun _ => (s.src r.src).toNat))

/-- R171, R181: VCMP and VCMPU write mask bit i when the condition holds for every element of lane i and keep the bits that the guard mask
leaves out, on floating values as on integers; VRED gives the sum, greatest or least of the elements in lanes of the mask, the identity for
an empty one, and on floating types the pairwise tree over all elements, with the identity for those outside the mask. -/
def Obligations.VectorLaneSummaries : Prop :=
  (∀ (s : State) (r : VcmF) (a b : Vec), r.t.isInt = true → s.core.readV r.a = .val a → s.core.readV r.b = .val b →
    let w := r.t.width
    let wins := s.taken [r.a, r.b]
    let n := feedLatency 2 [r.a, r.b]
    let all (i : Nat) (p : Nat → Nat → Bool) : Bool :=
      (List.range (32 / w)).all fun e => p (lane w a (32 / w * i + e)) (lane w b (32 / w * i + e))
    let merged (k : Word) (p : Nat → Nat → Bool) : Prop := ∀ i < 64,
      k.getLsbD i = if (s.maskOf r.g).getLsbD i then all i p else (s.maskOf ⟨false, r.kd⟩).getLsbD i
    let rule (lt : Nat → Nat → Bool) : Nat → Nat → Bool := fun x y =>
      match r.cond with
      | .eq => x == y | .ne => x != y | .lt => lt x y | .le => !lt y x | .gt => lt y x | .ge => !lt x y | .un => false
    (∃ k : Word, Completes (.vcmp r) s 3 (wins.flying 3 n (some (k.setWidth 2048)) [.k r.kd k] 0) ∧
      merged k (rule fun x y => decide (sInt w x < sInt w y))) ∧
    (∃ k : Word, Completes (.vcmpu r) s 3 (wins.flying 3 n (some (k.setWidth 2048)) [.k r.kd k] 0) ∧
      merged k (rule fun x y => decide (x < y)))) ∧
  (∀ (s : State) (r : VecR) (a : Vec), r.t.isInt = true → s.core.readV r.a = .val a → s.core.dstReady r.d = .ok →
    let w := r.t.width
    let live := (List.range (2048 / w)).filter fun j => (s.maskOf r.g).getLsbD (w * j / 32)
    ∃ x : Nat, x < 2 ^ w ∧ Completes (.vred r) s 3 (s.givesV [r.a] 8 r.d (BitVec.ofNat 2048 x) [] 0) ∧
      (r.op = .add → x = ((live.map fun j => lane w a j).sum) % 2 ^ w) ∧
      (r.op = .max → (∀ j ∈ live, sInt w (lane w a j) ≤ sInt w x) ∧
        (if live = [] then x = 2 ^ (w - 1) else ∃ j ∈ live, x = lane w a j)) ∧
      (r.op = .min → (∀ j ∈ live, sInt w x ≤ sInt w (lane w a j)) ∧
        (if live = [] then x = 2 ^ (w - 1) - 1 else ∃ j ∈ live, x = lane w a j)) ∧
      (r.op = .amax → if live = [] then x = 0 else (∀ j ∈ live, (sInt w (lane w a j)).natAbs ≤ x) ∧
        ∃ j ∈ live, x = (sInt w (lane w a j)).natAbs)) ∧
  (∀ (s : State) (r : VcmF) (a b : Vec) (f : Fmt), fmtOf r.t = some f → s.core.readV r.a = .val a → s.core.readV r.b = .val b →
    let w := r.t.width
    ∃ k : Word, Completes (.vcmp r) s 3
        ((s.taken [r.a, r.b]).flying 3 (feedLatency 2 [r.a, r.b]) (some (k.setWidth 2048)) [.k r.kd k] 0) ∧
      ∀ i < 64, if (s.maskOf r.g).getLsbD i = true then
          (k.getLsbD i = true ↔ ∀ e < 32 / w,
            condHolds r.cond (f.decode (lane w a (32 / w * i + e))) (f.decode (lane w b (32 / w * i + e))))
        else k.getLsbD i = (s.maskOf ⟨false, r.kd⟩).getLsbD i) ∧
  (∀ (s : State) (r : VecR) (a : Vec) (f : Fmt), fmtOf r.t = some f → s.core.readV r.a = .val a → s.core.dstReady r.d = .ok →
    let w := r.t.width
    let fctl := s.core.act.sys.fctl
    let leaf (j : Nat) : Nat :=
      let c := lane w a j
      if (s.maskOf r.g).getLsbD (w * j / 32) = false then redNeutral r.op f
      else if fctl.getLsbD 1 = true ∧ f.isSub c = true then c / 2 ^ (w - 1) * 2 ^ (w - 1) else c
    ∃ (x : Nat) (flags srs : Word), Completes (.vred r) s 3 ((s.redrawn srs).givesV [r.a] 8 r.d (BitVec.ofNat 2048 x) [] flags) ∧
      (fctlMode fctl ≠ .rsr ∨ r.op ≠ .add → srs = s.core.act.sys.srs) ∧
      PairTree (redJoins r.op f (fctlMode fctl) (fctl.getLsbD 0)) (Nat.log2 (2048 / w)) leaf x)

/-- R175, R177-R179: VCVT keeps the elements outside its part and its mask; VQNT and VSCL trap on a placement that is odd or above 190 and
otherwise complete, VQNT of zeros with codes 0 and scale bytes 0x7F. -/
def Obligations.VectorConversions : Prop :=
  (∀ (s : State) (r : VcvF),
    ∃ (x : Vec) (flags srs : Word),
      Completes (.vcvt r) s 3 ((s.redrawn srs).flying 3 4 (some x) [.v r.vd x] flags) ∧
      (r.rm ≠ .rsr → srs = s.core.act.sys.srs) ∧
      let n := 2048 / Nat.max r.frm.width r.tgt.width
      let at_ := if r.tgt.width < r.frm.width then r.part.val * n else 0
      (∀ e < 2048 / r.tgt.width, (e < at_ ∨ at_ + n ≤ e ∨ (s.maskOf r.g).getLsbD (r.tgt.width * e / 32) = false) →
        lane r.tgt.width x e = lane r.tgt.width (s.core.act.view.v[r.vd]) e) ∧
      (r.frm = .i8 → r.tgt = .i32 → ∀ e < 64, (s.maskOf r.g).getLsbD e = true →
        sInt 32 (lane 32 x e) = sInt 8 (lane 8 (s.core.act.view.v[r.vs]) (r.part.val * 64 + e)))) ∧
  (∀ (s : State) (r : VecQ) (a : Vec), s.core.readV r.a = .val a → s.core.dstReady r.d = .ok →
    let lane0 := lane 32 (s.core.oldV r.d) 0
    let p := lane0 % 256
    if p % 2 = 1 ∨ 190 < p then
      Traps (.vqnt r) s 3 9 (BitVec.ofNat 64 lane0) ∧ Traps (.vscl r) s 3 9 (BitVec.ofNat 64 lane0)
    else
      (∃ x flags, Completes (.vscl r) s 3 (s.givesV [r.a] 4 r.d x [] flags)) ∧
      (∃ x maps flags, Completes (.vqnt r) s 3 (s.givesV [r.a] 8 r.d x maps flags) ∧
        (a = 0 → x = 0 ∧ flags = 0 ∧ ∃ y : Vec, (maps.head? = some (.v r.b y)) ∧
          ∀ i < 256, lane 8 y i = if 192 ≤ i then 0 else if i = p ∨ i = p + 1 then 0x7F
            else lane 8 (s.core.act.view.v[r.b]) i)))

/-- R185, R48: VMRD reads and VMWR writes the 64 elements of an m operand; VMWR lands in no latch, four cycles after its issue, and with an
inbound f source five, which is the model's choice (entry 88, DESIGN CHOICE). An m register that no tile operation is writing gives its
elements as they are; one with an uncorrectable error takes the machine check with its number, the model's choice too (entry 85). -/
def Obligations.MatrixMoves : Prop :=
  ∀ (s : State) (r : VmxF),
    let idx := s.sreg r.idx
    let row := idx.toNat % 128
    let col := idx.toNat / 256 % 64
    let at_ (i : Nat) : Nat × Nat := match r.m.dir with
      | .row => (row, i)
      | .col => (row / 64 * 64 + i, col)
      | .dia => ((row + i) % 128, (col + i) % 64)
      | .adia => ((row + i) % 128, (col + 64 - i) % 64)
    (s.core.dstReady r.v = .ok → r.m.m ∈ s.core.tile.mBad → Traps (.vmrd r) s 3 0x13 (BitVec.ofNat 64 r.m.m.val)) ∧
    (s.core.dstReady r.v = .ok → r.m.m ∉ s.core.tile.mBad → (∀ o ∈ s.core.tile.ops, o.eff = none) → s.core.tile.past = [] →
      ∃ x : Vec, Completes (.vmrd r) s 3 (({ s with draws := s.draws + 8192 } : State).givesV [] 4 r.v x [] 0) ∧ ∀ i < 64,
        lane 32 x i = if (s.maskOf r.g).getLsbD i then lane 32 (s.core.tile.m[r.m.m]) (64 * (at_ i).1 + (at_ i).2)
          else lane 32 (s.core.oldV r.v) i) ∧
    (∀ x, s.core.readV r.v = .val x →
      Completes (.vmwr r) s 3 ((s.taken [r.v]).flying 3 (feedLatency 4 [r.v]) none [.m r.m idx (s.maskOf r.g) x] 0)) ∧
    (∀ (m : BitVec 262144) (x : Vec) (k : Word), ∀ i < 64, lane 32 (mWrite m r.m.dir idx k x) (64 * (at_ i).1 + (at_ i).2) =
      if k.getLsbD i then lane 32 x i else lane 32 m (64 * (at_ i).1 + (at_ i).2))

/-- R164, R27, in every form of S3 that may name a feed: a feed operand that is not bound for its direction traps with the operand code, an
empty inbound or a full outbound stream makes the slot wait, and a window with an uncorrectable error gives a machine check. Which of
several unbound operands, or of several errors, EINFO names, and that VQNT and VSCL judge their placement word before this, are the
model's choices (entry 88, DESIGN CHOICE). -/
def Obligations.FeedOperandConditions : Prop :=
  (∀ (s : State) (i : Instr) (srcs : List VOp) (d : VOp), feedForm i = some (srcs, d) →
    (∀ r, i = .vqnt r ∨ i = .vscl r → lane 32 (s.core.oldV r.d) 0 % 2 = 0 ∧ lane 32 (s.core.oldV r.d) 0 % 256 ≤ 190) →
    let bound (x : VOp) : Prop := ∀ c, s.core.readV x ≠ .bad c
    let there (x : VOp) : Prop := bound x ∧ s.core.readV x ≠ .empty
    let intact (x : VOp) : Prop := ∃ v, s.core.readV x = .val v
    (∀ l x rest c, srcs = l ++ x :: rest → (∀ y ∈ l, bound y) → s.core.readV x = .bad c → Traps i s 3 9 (BitVec.ofNat 64 c)) ∧
    (∀ c, (∀ x ∈ srcs, bound x) → s.core.dstReady d = .bad c → Traps i s 3 9 (BitVec.ofNat 64 c)) ∧
    ((∀ x ∈ srcs, bound x) → (∀ c, s.core.dstReady d ≠ .bad c) →
      ((∃ x ∈ srcs, s.core.readV x = .empty) ∨ s.core.dstReady d = .full) → Waits i s) ∧
    (∀ l x rest e, srcs = l ++ x :: rest → (∀ y ∈ srcs, there y) → (∀ y ∈ l, intact y) → s.core.dstReady d = .ok →
      s.core.readV x = .error e → Traps i s 3 0x13 (BitVec.ofNat 64 e))) ∧
  (∀ (c : Core) (f : Fin 8),
    (c.dstReady (.f f) = .bad (32 + f.val) ↔ ∀ fd, c.feeds[f] = some fd → fd.pat.out = false) ∧
    ((∀ w ∈ c.act.wins, w.1 ≠ f.val) → (c.readV (.f f) = .bad (32 + f.val) ↔ ∀ fd, c.feeds[f] = some fd → fd.pat.out = true)))

/-! ### Scratchpad and global memory -/

/-- R225, R243, R244, R246, R233, R259, R198: LDS and LDV of the own scratchpad give the bytes as they stand at issue, but for those that
the term engine writes unordered, STS and STV write the bytes of their form at the address of their operands and no other byte; a
read-only region is page-faulted; the range check stands before alignment. -/
def Obligations.OwnScratchpadAccesses : Prop :=
  (∀ (s : State),
    (∀ r : MemL, s.guard r.g = true →
      let n := sizeL r.w
      let ea := s.sreg r.base + r.off.signExtend 64 * BitVec.ofNat 64 n
      let a := ea.toNat % 2 ^ 22
      spaOk s ea = true → ea.toNat % n = 0 → spaOwn s ea = true → touch a n s = (s, .ok) → s.core.badAt a n = false →
        ∃ (x : Word) (u : State) (bs : List Byte), LooksAt s a n u bs ∧
          Completes (.lds r) s 2 (u.flying 2 5 (some (x.setWidth 2048)) (if r.wb then [.s r.reg x] else []) 0) ∧
          (if r.w ∈ [.b, .h, .w] then x.toInt = sInt (8 * n) (ofBytes bs) else x.toNat = ofBytes bs)) ∧
    (∀ r : MemVL, s.guard r.g = true →
      let ea := s.sreg r.base + r.off.signExtend 64 * 256
      let a := ea.toNat % 2 ^ 22
      spaOk s ea = true → ea.toNat % 256 = 0 → spaOwn s ea = true → touch a 256 s = (s, .ok) → s.core.badAt a 256 = false →
        ∃ (x : Vec) (u : State) (bs : List Byte), LooksAt s a 256 u bs ∧ x = BitVec.ofNat 2048 (ofBytes bs) ∧
          Completes (.ldv r) s 2 (u.flying 2 5 (some x) (if r.wb then [.v r.reg x] else []) 0))) ∧
  (∀ (s : State) (i : Instr) (g : Guard) (ea : Word) (n x : Nat),
    ((∃ r : MemS, i = .sts r ∧ g = r.g ∧ n = sizeS r.w ∧ ea = s.sreg r.base + r.off.signExtend 64 * BitVec.ofNat 64 n ∧
        x = (s.sreg r.reg).toNat % 2 ^ (8 * n)) ∨
     (∃ r : MemVS, i = .stv r ∧ g = r.g ∧ n = 256 ∧ ea = s.sreg r.base + r.off.signExtend 64 * 256 ∧
        x = (s.core.act.view.v[r.reg]).toNat)) →
    s.guard g = true → spaOk s ea = true → ea.toNat % n = 0 → spaOwn s ea = true →
    let a := ea.toNat % 2 ^ 22
    (s.core.roHit a n = true → Traps i s 2 0x11 (s.core.gvaOf a)) ∧
    (s.core.roHit a n = false → touch a n s = (s, .ok) →
      ∃ t, exec i s = .next t ∧ Finishes 2 (s.modCore fun c => c.spWrite a (toBytes n x)) t ∧
        (∀ p, (∀ j < n, p ≠ s.core.physOff (a + j)) → t.core.spm.read p = s.core.spm.read p) ∧
        ((∀ j < n, s.core.regionAt (a + j) = s.core.regionAt a) →
          ∀ j < n, t.core.spm.read (s.core.physOff (a + j)) = BitVec.ofNat 8 (x / 256 ^ j)) ∧
        (∀ b, t.rd b = s.rd b))) ∧
  (∀ (s : State) (i : Instr) (g : Guard) (ea : Word) (n : Nat),
    ((∃ r : MemL, i = .lds r ∧ g = r.g ∧ n = sizeL r.w ∧ ea = s.sreg r.base + r.off.signExtend 64 * BitVec.ofNat 64 n) ∨
     (∃ r : MemS, i = .sts r ∧ g = r.g ∧ n = sizeS r.w ∧ ea = s.sreg r.base + r.off.signExtend 64 * BitVec.ofNat 64 n) ∨
     (∃ r : MemVL, i = .ldv r ∧ g = r.g ∧ n = 256 ∧ ea = s.sreg r.base + r.off.signExtend 64 * 256) ∨
     (∃ r : MemVS, i = .stv r ∧ g = r.g ∧ n = 256 ∧ ea = s.sreg r.base + r.off.signExtend 64 * 256)) →
    s.guard g = true →
    let role := ea.toNat % 2 ^ 32 / 2 ^ 24
    let fits := ea.toNat / 2 ^ 22 % 4 = 0 ∧ ea.toNat % 2 ^ 22 ≤ 0x2FFFFF ∧
      (role = 0xFF ∨ role = s.core.act.role ∨ role < s.gangSize)
    (¬fits → Traps i s 2 9 ea) ∧ (fits → ea.toNat % n ≠ 0 → Traps i s 2 8 ea))

/-- R226, R255: LDS, LDV, STS and STV of another role's scratchpad send a request to the core that the role names; it reaches the
peer 6 + d ticks or more after the issue. Stores wait while 256 are unacknowledged. -/
def Obligations.PeerScratchpadAccesses : Prop :=
  ∀ (s : State) (k : CoreKey),
    (∀ r : MemL, s.guard r.g = true →
      let ea := eaMem s r.base r.off (sizeL r.w)
      spaOk s ea = true → ea.toNat % sizeL r.w = 0 → spaOwn s ea = false → s.roleCore (ea.toNat % 2 ^ 32 / 2 ^ 24) = some k →
        ∃ t q, exec (.lds r) s = .next t ∧ q.kind = .peerLoad k ∧ q.pa = ea.toNat % 2 ^ 22 ∧ q.size = sizeL r.w ∧
          q.sext = signedL r.w ∧ Sends s t q (.peerAccess q.id) (some (5, if r.wb then [.s r.reg 0] else [])) ∧
          ∃ d, s.time + 6 + stripDist s.key k ≤ d ∧ (d, Instr.peerAccess q.id) ∈ t.cal) ∧
    (∀ r : MemVL, s.guard r.g = true →
      let ea := eaMem s r.base r.off 256
      spaOk s ea = true → ea.toNat % 256 = 0 → spaOwn s ea = false → s.roleCore (ea.toNat % 2 ^ 32 / 2 ^ 24) = some k →
        ∃ t q, exec (.ldv r) s = .next t ∧ q.kind = .peerLoad k ∧ q.pa = ea.toNat % 2 ^ 22 ∧ q.size = 256 ∧
          Sends s t q (.peerAccess q.id) (some (5, if r.wb then [.v r.reg 0] else []))) ∧
    (∀ r : MemS, s.guard r.g = true →
      let ea := eaMem s r.base r.off (sizeS r.w)
      spaOk s ea = true → ea.toNat % sizeS r.w = 0 → spaOwn s ea = false → s.roleCore (ea.toNat % 2 ^ 32 / 2 ^ 24) = some k →
        (256 ≤ s.core.unacked → Waits (.sts r) s) ∧
        (s.core.unacked < 256 → ∃ t q, exec (.sts r) s = .next t ∧ q.kind = .peerStore k ∧ q.pa = ea.toNat % 2 ^ 22 ∧
          q.size = sizeS r.w ∧ q.data = (s.sreg r.reg).toNat % 2 ^ (8 * sizeS r.w) ∧ Sends s t q (.peerAccess q.id) none)) ∧
    (∀ r : MemVS, s.guard r.g = true →
      let ea := eaMem s r.base r.off 256
      spaOk s ea = true → ea.toNat % 256 = 0 → spaOwn s ea = false → s.roleCore (ea.toNat % 2 ^ 32 / 2 ^ 24) = some k →
        s.core.unacked < 256 → ∃ t q, exec (.stv r) s = .next t ∧ q.kind = .peerStore k ∧ q.pa = ea.toNat % 2 ^ 22 ∧
          q.size = 256 ∧ q.data = (s.core.act.view.v[r.reg]).toNat ∧ Sends s t q (.peerAccess q.id) none)

/-- R233, R245, R266, R74: the checks of a global access in order: alignment, peer, translation; a walk under way makes it wait. -/
def Obligations.GlobalAccessChecks : Prop :=
  ∀ (s : State) (i : Instr) (f : GlobalForm), globalForm s i = some f → s.guard f.g = true →
    (f.ea.toNat % f.size ≠ 0 → Traps i s 2 8 f.ea) ∧
    (f.ea.toNat % f.size = 0 → s.peerPasses s.core.act.part (peerOf f.ea) = false → Traps i s 2 0xA f.ea) ∧
    (f.ea.toNat % f.size = 0 → s.peerPasses s.core.act.part (peerOf f.ea) = true → s.ownDevice (peerOf f.ea) = true →
      (∀ s' rs lv, translate (vaOf f.ea) f.write s = (s', .fault rs lv) → Traps i s 2 0x11 f.ea) ∧
      (∀ s', translate (vaOf f.ea) f.write s = (s', .wait) → Waits i s) ∧
      (∀ s' pa, translate (vaOf f.ea) f.write s = (s', .hit pa) → f.release = true → releaseReady f.scope s' = false → Waits i s))

/-- R224, R227, R228, R232, R246-R249: past its checks, an access to global memory sends its request: loads, LDA, ATOM and CAS with
a result due 14 cycles after issue, ST and STL without one. A target on another device gets it through the canopy. -/
def Obligations.GlobalAccessesSend : Prop :=
  ∀ (s s' : State) (i : Instr) (f : GlobalForm) (rem : Option Nat) (pa : Nat), globalForm s i = some f → s.guard f.g = true →
    f.ea.toNat % f.size = 0 → s.peerPasses s.core.act.part (peerOf f.ea) = true →
    ((s.ownDevice (peerOf f.ea) = true ∧ rem = none ∧ translate (vaOf f.ea) f.write s = (s', .hit pa)) ∨
     (s.ownDevice (peerOf f.ea) = false ∧ rem = some (peerOf f.ea) ∧ s' = s ∧ pa = 0)) →
    (f.release = true → releaseReady f.scope s' = true) →
    ((∃ r, i = .st r) → s'.core.unacked < 256) →
    ∃ t q, exec i s = .next t ∧ q.gva = f.ea ∧ q.pa = pa ∧ q.size = f.size ∧ q.remote = rem ∧
      (∀ r, i = .ld r → q.kind = .load ∧ q.sext = signedL r.w ∧ q.cls = r.ac ∧
        Sends s' t q (firstEvent q) (some (14, if r.wb then [.s r.reg 0] else []))) ∧
      (∀ r, i = .lda r → q.kind = .lda ∧ q.acq = true ∧ q.scope = r.scope ∧
        Sends s' t q (firstEvent q) (some (14, [.s r.reg 0]))) ∧
      (∀ r, i = .atom r → q.kind = .atom r.op ∧ q.data = (s.sreg r.reg).toNat % 2 ^ (8 * f.size) ∧
        Sends s' t q (firstEvent q) (some (14, [.s r.reg 0]))) ∧
      (∀ r, i = .cas r → q.kind = .cas (s.sreg r.reg) ∧ q.data = (s.sreg r.new).toNat % 2 ^ (8 * f.size) ∧
        q.acqFail = r.acqFail ∧ Sends s' t q (firstEvent q) (some (14, [.s r.reg 0]))) ∧
      (∀ r, i = .st r → q.kind = .store ∧ q.data = (s.sreg r.reg).toNat % 2 ^ (8 * f.size) ∧ q.cls = r.ac ∧
        Sends s' t q (firstEvent q) none) ∧
      (∀ r, i = .stl r → q.kind = .stl ∧ q.data = (s.sreg r.reg).toNat % 2 ^ (8 * f.size) ∧ Sends s' t q (firstEvent q) none)

/-- R228, R229, R250: PHASE and FENCE wait until every earlier store that the scope reaches is acknowledged and every load bound;
PHASE is also an acquire point, and neither lands anything. -/
def Obligations.PhaseAndFence : Prop :=
  ∀ (s : State) (r : OrdF), s.guard r.g = true →
    (releaseReady r.scope s = false → Waits (.phase r) s ∧ Waits (.fence r) s) ∧
    (releaseReady r.scope s = true → Completes (.fence r) s 2 s ∧
      Completes (.phase r) s 2 (s.modCtx fun c => c.refresh ⟨r.scope, s.stamp⟩) ∧
      (r.scope ≠ .core → s.stamp ≤ (s.core.act.refresh ⟨r.scope, s.stamp⟩).fresh) ∧
      (s.core.act.refresh ⟨.core, s.stamp⟩) = s.core.act)

/-- R272-R275, R260, R261: TAGL gives the slot of the key or the miss code and makes a hit the newest, TAGI leaves the key with its slot as
the newest of the table, TAGX leaves no entry of the key; RGWB of one DIRTY granule sends 32 line stores and leaves it being written. -/
def Obligations.TagTableAndWriteBack : Prop :=
  (∀ (s : State),
    (∀ r : RegU, s.guard r.g = true →
      (∀ w, s.core.tagFind (s.src r.a) = some w →
        Completes (.tagl r) s 2 ((s.modCore fun c =>
          { c with tags := w :: c.tags.filter fun x => !(x.set == w.set && x.way == w.way) }).flying 2 2
          (some ((BitVec.ofNat 64 w.slot).setWidth 2048)) (if r.wb then [.s r.d (BitVec.ofNat 64 w.slot)] else []) 0)) ∧
      (s.core.tagFind (s.src r.a) = none → Gives (.tagl r) s 2 2 r.wb r.d 0xFFFFFFFF)) ∧
    (∀ r : RegN, s.guard r.g = true →
      (1535 < (s.src r.b).toNat → Traps (.tagi r) s 2 9 (s.src r.b)) ∧
      ((s.src r.b).toNat ≤ 1535 → ∃ w rest, Completes (.tagi r) s 2 (s.modCore fun c => { c with tags := w :: rest }) ∧
        w.set = (s.src r.a).toNat / 2 ^ 11 % 64 ∧ w.key = (s.src r.a).toNat / 2 ^ 11 ∧ w.slot = (s.src r.b).toNat ∧
        (∀ x ∈ rest, x ∈ s.core.tags ∧ ¬(x.set = w.set ∧ x.way = w.way)))) ∧
    (∀ r : RegO, s.guard r.g = true → ∃ left, Completes (.tagx r) s 2 (s.modCore fun c => { c with tags := left }) ∧
      ∀ x, x ∈ left ↔ x ∈ s.core.tags ∧ ¬(x.set = (s.src r.a).toNat / 2 ^ 11 % 64 ∧ x.key = (s.src r.a).toNat / 2 ^ 11)) ∧
    (∀ r : RegO, s.guard r.g = true →
      (64 < (s.src r.a).toNat → Traps (.rgwb r) s 2 9 (s.src r.a)) ∧
      ((s.src r.a).toNat ≤ 64 → s.core.dirtyGrans (s.src r.a).toNat = [] → Completes (.rgwb r) s 2 s))) ∧
  (∀ (s : State) (r : RegO) (g i pa : Nat) (rg : Region), s.guard r.g = true → (s.src r.a).toNat ≤ 64 →
    s.core.dirtyGrans (s.src r.a).toNat = [g] → s.core.regionAt (4096 * g) = some (i, rg) → s.core.act.phase = .issuing →
    let gva := rg.gva + BitVec.ofNat 64 (4096 * g - rg.spa)
    s.ownDevice (peerOf gva) = true → translate (vaOf gva) true s = (s, .hit pa) →
    ∃ t, exec (.rgwb r) s = .next t ∧ t.core.granSt g = .writing 32 false ∧
      t.core.act.bun = s.core.act.bun.map (Bundle.finished 2) ∧ (∀ a, t.core.spm.read a = s.core.spm.read a) ∧
      ∀ j < 32, ∃ q ∈ t.reqs, q.kind = .fillBack g ∧ q.pa = pa + 128 * j ∧ q.size = 128 ∧
        q.gva = gva + BitVec.ofNat 64 (128 * j) ∧ ∃ k ∈ t.core.toks, k.id = q.id ∧ k.store = true)

/-! ### Requests at their targets -/

/-- R27, R221-R223, R226, R234, R235, R255, R361, R428: a request that nothing keeps back is applied at its home slice as one step of the
line's order, or at the peer's scratchpad: stores write their bytes and no other, an atomic writes its new value, a CAS only where it
matches, an answer takes the old bytes. A request that its context orders behind another, that its meters have no tokens for, or that the
plan gives no slots, waits; a consuming one on a marked line, or one that loses a beat, is refused with the error (R27). The model's own
choices: an access of n bytes takes 16 n tokens, all at once, and one to a peer's scratchpad none (entry 92, DEDUCED); which traffic needs
slots of the plan (entry 8); a lost beat refuses a request before its step (entry 86, DESIGN CHOICE). -/
def Obligations.RequestsAreServed : Prop :=
  (∀ (s : State) (r : Req), s.sound → s.req? r.id = some r → r.applied = false → r.remote = none → s.blocked r = false →
    r.kind.isPeer = false → s.lineBad r.pa = false → 0 < r.size → r.mayGo s = true →
    r.injected = true ∨ s.meshOpen r.key r.part r.size = true →
    (r.kind.consumes = true → r.crosses s = true → Config.beatLost s.seed = false) →
    let n := r.size
    let m := 2 ^ (8 * n)
    let old := ofBytes ((List.range n).map fun i => s.rd (r.pa + i))
    ∃ t, exec (.homeSliceApply r.id) s = .next t ∧
      (∃ q, t.req? r.id = some q ∧ q.applied = true ∧ q.bad = 0 ∧
        (r.kind = .lda → q.data = old) ∧ (∀ op, r.kind = .atom op → q.data = old) ∧ (∀ c, r.kind = .cas c → q.data = old)) ∧
      (∃ d, s.time < d ∧ (r.kind = .lda ∨ (∃ op, r.kind = .atom op) ∨ (∃ c, r.kind = .cas c) → (d, Instr.loadReply r.id) ∈ t.cal) ∧
        (r.kind = .store ∨ r.kind = .stl → (d, Instr.storeAck r.id) ∈ t.cal)) ∧
      let wrote (x : Nat) : Prop := (∀ i < n, t.rd (r.pa + i) = BitVec.ofNat 8 (x / 256 ^ i)) ∧
        (∀ a, (∀ i < n, a ≠ r.pa + i) → t.rd a = s.rd a)
      (r.kind = .store ∨ r.kind = .stl → wrote r.data) ∧ (r.kind = .lda → ∀ a, t.rd a = s.rd a) ∧
      (r.kind = .atom .add → wrote ((old + r.data) % m)) ∧ (r.kind = .atom .and → wrote (old &&& r.data)) ∧
      (r.kind = .atom .or → wrote (old ||| r.data)) ∧ (r.kind = .atom .xor → wrote (old ^^^ r.data)) ∧
      (r.kind = .atom .xchg → wrote r.data) ∧
      (r.kind = .atom .min → wrote (if sInt (8 * n) r.data < sInt (8 * n) old then r.data else old)) ∧
      (r.kind = .atom .max → wrote (if sInt (8 * n) r.data < sInt (8 * n) old then old else r.data)) ∧
      (∀ c, r.kind = .cas c → if old = c.toNat % m then wrote r.data else ∀ a, t.rd a = s.rd a)) ∧
  (∀ (s : State) (r : Req) (k : CoreKey), s.req? r.id = some r → r.applied = false → s.blocked r = false → 0 < r.size →
    s.key = k → touch r.pa r.size s = (s, .ok) →
    let back := s.time + 6 + stripDist r.key k
    (r.kind = .peerLoad k → s.core.badAt r.pa r.size = false → s.core.tile.ops = [] → s.core.tile.past = [] →
      ∃ t q, exec (.peerAccess r.id) s = .next t ∧
      t.req? r.id = some q ∧ q.applied = true ∧ q.data = ofBytes (s.core.spRead r.pa r.size) ∧
      (back, Instr.loadReply r.id) ∈ t.cal ∧ ∀ p, t.core.spm.read p = s.core.spm.read p) ∧
    (r.kind = .peerStore k → s.core.roHit r.pa r.size = false → ∃ t q, exec (.peerAccess r.id) s = .next t ∧
      t.req? r.id = some q ∧ q.applied = true ∧ (back, Instr.storeAck r.id) ∈ t.cal ∧
      t.core.spm = (s.core.spWrite r.pa (toBytes r.size r.data)).spm ∧
      ∀ p, (∀ j < r.size, p ≠ s.core.physOff (r.pa + j)) → t.core.spm.read p = s.core.spm.read p)) ∧
  (∀ (s : State) (r : Req), s.sound → s.req? r.id = some r → r.applied = false → r.remote = none →
    let waits (t : State) : Prop := t.reqs = s.reqs ∧ (s.time + 1, Instr.homeSliceApply r.id) ∈ t.cal ∧ ∀ a, t.rd a = s.rd a
    (s.blocked r = true ∨ r.mayGo s = false → Yields (.homeSliceApply r.id) s waits) ∧
    (r.injected = false → s.meshOpen r.key r.part r.size = false → Yields (.homeSliceApply r.id) s waits) ∧
    (s.blocked r = false → r.mayGo s = true → r.injected = false → s.meshOpen r.key r.part r.size = true →
      Yields (.homeSliceApply r.id) s fun t => (t.coreAt r.key).meshTok = some (s.meshTokens r.key r.part - 16 * r.size)) ∧
    (s.blocked r = false → r.mayGo s = true → r.kind.consumes = true → r.injected = true →
      s.lineBad r.pa = true ∨ (r.crosses s = true ∧ Config.beatLost s.seed = true) →
        Yields (.homeSliceApply r.id) s fun t => { r with bad := 0x13 } ∈ t.reqs ∧ Ahead s t (replyEvent r) ∧ ∀ a, t.rd a = s.rd a))

/-- R224, R226, R229, R231, R246, R92, R242: a reply puts its value, extended as the load says, into the result that waits for it; an
acknowledgement takes its store from those that release points wait for; one that reports an error stops the context, which keeps the
operation for its replay. -/
def Obligations.RepliesArrive : Prop :=
  (∀ (s : State) (r : Req) (f : Flight) (d : Fin 64) (x : Word), s.req? r.id = some r → r.key = s.key → r.applied = true → r.bad = 0 →
    r.size ∈ [1, 2, 4, 8] → r.kind = .load ∨ r.kind = .lda → f ∈ s.core.act.flights → f.need = some r.id → f.writes = [.s d x] →
    let v : Word := if r.sext then BitVec.ofInt 64 (sInt (8 * r.size) r.data) else BitVec.ofNat 64 (r.data % 2 ^ (8 * r.size))
    ∃ t g, exec (.loadReply r.id) s = .next t ∧ g ∈ t.core.act.flights ∧ g.due = f.due ∧ g.need = none ∧ g.writes = [.s d v] ∧
      g.latch = some (v.setWidth 2048) ∧ t.req? r.id = none ∧ (∀ k ∈ t.core.toks, k.id ≠ r.id) ∧
      t.core.act.regs = s.core.act.regs ∧ (g.refresh.isSome = true ↔ r.acq = true)) ∧
  (∀ (s : State) (r : Req), s.req? r.id = some r → r.key = s.key → r.applied = true → r.bad = 0 →
    ∃ t, exec (.storeAck r.id) s = .next t ∧ (∀ k ∈ t.core.toks, k.id ≠ r.id) ∧ t.req? r.id = none ∧
      t.core.act.regs = s.core.act.regs ∧ t.core.act.st = s.core.act.st ∧
      (∀ g again, r.kind = .fillBack g → s.core.granSt g = .writing 1 again →
        t.core.granSt g = if again then .dirty else .clean) ∧
      (∀ g n again, r.kind = .fillBack g → s.core.granSt g = .writing (n + 2) again → t.core.granSt g = .writing (n + 1) again)) ∧
  (∀ (s : State) (r : Req) (i : Instr), (i = .loadReply r.id ∨ i = .storeAck r.id) → s.req? r.id = some r → r.key = s.key →
    s.core.act.st = .running → s.core.act.phase ≠ .boundary → s.core.act.gid = r.ctx →
    (∀ b, s.core.act.phase = .gap → s.core.act.bun = some b → s.core.act.vcyc < b.cyc + 1 + b.empty) → r.bad = 0x13 ∨ 1 ≤ r.bad ∧ r.bad ≤ 4 →
    ∃ t, exec i s = .next t ∧ t.core.act.st = .frozen ∧ replayReq r.id ∈ t.core.act.replay ∧
      ∃ e, (t.part s.core.act.part).fqwait = (s.part s.core.act.part).fqwait ++ [e] ∧
        e.cause = (if r.bad = 0x13 then 0x13 else 0x12) ∧ e.slot = r.slot ∧ e.einfo = r.gva ∧ e.stopped = true)

/-! ### The tile -/

/-- R115, R193, R195, R196, R210, R213-R217: a tile operation whose checks pass enters the engine queue with the values it captured at
issue; one within four virtual cycles of the last takes the hazard trap, a full queue makes it wait, bad operands trap. -/
def Obligations.TileOperationsEnter : Prop :=
  (∀ (s : State), tileFree s →
    (∀ r : TilM, s.guard r.g = true → padFits s (s.src r.a) (s.src r.b) (if r.m.dir = .row then 128 else 64)
      (if r.m.dir = .row then 256 else 512) →
      Enqueues (.mld r) s (.mld r.m (s.src r.a) (s.src r.b)) ∧ Enqueues (.mst r) s (.mst r.m (s.src r.a) (s.src r.b))) ∧
    (∀ r : TilP, s.guard r.g = true → padFits s (s.src r.a) (s.src r.b) 128 512 →
      Enqueues (.mstPs r) s (.mstPs r.ps (s.src r.a) (s.src r.b))) ∧
    (∀ r : MzM, s.guard r.g = true → Enqueues (.mz r) s (.mz r.m)) ∧
    (∀ r : MzP, s.guard r.g = true → Enqueues (.mzPs r) s (.mzPs r.ps)) ∧
    (∀ r : MtaF, s.guard r.g = true → pairCheck (s.greg 0) = none → spareCheck s r.qsel.val = none →
      (operandA s r.asp (s.src r.a)).2 = (none, none) → (operandB s r.bsp (s.src r.b)).2 = (none, none) →
      ∃ spare, Enqueues (.mta r) s (.mta (operandA s r.asp (s.src r.a)).1 (operandB s r.bsp (s.src r.b)).1 (s.greg 0) r.acc r.ps
        s.wacc spare)) ∧
    (∀ r : MtgF, s.guard r.g = true → pairCheck (s.greg 0) = none → spareCheck s r.qsel.val = none →
      (operandA s r.asp (s.src r.a)).2 = (none, none) →
      let groups := (List.range 8).map fun i => s.greg (Fin.ofNat 16 (8 + i))
      (∀ g ∈ groups, grpRows g ≠ 0 → padFits s (tileBase (s.src r.b) (s.greg 2) g) (s.greg 2) 32 (64 * opWidth (bfmt (s.greg 0)) / 8)) →
      (s.src r.b).toNat % 4 = 0 → (s.greg 2).toNat % 4 = 0 → (groups.map grpRows).sum ≤ 128 →
      ∃ spare, Enqueues (.mtg r) s (.mtg (operandA s r.asp (s.src r.a)).1 (s.src r.b) (s.greg 2) groups (s.greg 0) r.ps s.wacc
        spare)) ∧
    (∀ r : MscaF, s.guard r.g = true → (r.nosc = false → mapPair (s.greg 3) r.ssel.val % 2 = 0) →
      Enqueues (.msca r) s (.msca r.ps r.c
        (if r.nosc then none else some (s.core.act.view.v[Fin.ofNat 32 (mapPair (s.greg 3) r.ssel.val)]))))) ∧
  (∀ (s : State),
    (∀ (i : Instr) (g : Guard) (c0 : Nat), isTileOp i = true → guardOf i = some g → s.guard g = true →
      s.core.act.hazard = some c0 → s.core.act.cyc - c0 < 4 → Traps i s 4 0xB (BitVec.ofNat 64 (s.core.act.cyc - c0))) ∧
    (∀ r : MzM, s.guard r.g = true → (∀ c0, s.core.act.hazard = some c0 → 4 ≤ s.core.act.cyc - c0) →
      2 ≤ (s.core.tile.ops.filter fun o => o.start.isNone).length → Waits (.mz r) s) ∧
    (∀ r : TilM, s.guard r.g = true → tileFree s →
      let b := s.src r.a
      let rp := (s.src r.b).toNat % 2 ^ 16
      let role := b.toNat / 2 ^ 24 % 256
      let size := if r.m.dir = .row then 127 * rp + 256 else 63 * rp + 512
      let fits := (role = 0xFF ∨ role = s.core.act.role) ∧ b.toNat / 2 ^ 22 % 4 = 0 ∧ b.toNat % 2 ^ 22 + size ≤ 0x300000
      (¬fits → Traps (.mld r) s 4 9 b ∧ Traps (.mst r) s 4 9 b) ∧
      (fits → b.toNat % 4 ≠ 0 ∨ rp % 4 ≠ 0 → Traps (.mld r) s 4 8 b ∧ Traps (.mst r) s 4 8 b)))

/-- R191, R212, R218, R219: MCFG writes the fields of one or two engine registers, reserved bits zero; MWT waits until at most n
operations are incomplete; MCNT gives GPST, one counter, or the sum of the eight of a kind, without what operations that complete on its
issue tick add. -/
def Obligations.TileControl : Prop :=
  ∀ (s : State),
    (∀ r : McfgF, s.guard r.g = true → (r.pair = true → r.reg.val < 15) →
      let fields (n : Nat) : Word := if n = 0 then 0x77 else if n = 1 ∨ n = 2 then 0x7FFFFFFFF else if n = 3 then 0x1F1F1F1F
        else if n = 4 then 7 else 0xFFFF00FF
      engineRegOk r.reg.val = true → (r.pair = true → engineRegOk (r.reg.val + 1) = true) →
      ∃ g : Vector Word 16, Completes (.mcfg r) s 4 (s.modCore fun c => { c with tile := { c.tile with greg := g } }) ∧
        ∀ n : Fin 16, g[n] = if n = r.reg then s.src r.a &&& fields n.val
          else if r.pair = true ∧ n.val = r.reg.val + 1 then s.src r.b &&& fields n.val else s.core.tile.greg[n]) ∧
    (∀ r : MwtF, s.guard r.g = true → if s.core.tile.ops.length ≤ r.n.val then
        Completes (.mwt r) s 4 (s.modCore fun c => { c with tile := c.tile.cover r.n.val }) else Waits (.mwt r) s) ∧
    (∀ r : RegU, s.guard r.g = true →
      let a := s.src r.a
      let kind := a.toNat / 16 % 4
      let fresh (i : Fin 32) : Nat := ((s.core.tile.ops.filter fun o => o.done).map fun o => match o.eff with
        | some e => e.cnt.getD i.val 0
        | none => 0).sum
      let counter (i : Fin 32) : Word := s.core.tile.cnt[i] - BitVec.ofNat 64 (fresh i)
      Gives (.mcnt r) s 4 2 r.wb r.d (if a.getLsbD 6 then s.core.tile.greg[5]
        else if a.getLsbD 3 then ((List.range 8).map fun g => counter (Fin.ofNat 32 (8 * kind + g))).sum
        else counter (Fin.ofNat 32 (8 * kind + a.toNat % 8))))

/-- R193, R197, R198, R203, R206, R210, R213-R217: TILE_OP_START takes the oldest operation that has not started once its time has come,
reads its operands once their granules are filled, and runs for the ticks of its kind; at TILE_OP_COMPLETE its register, partial sum or
scratchpad bytes hold what its operands gave at its start, and nothing else has changed, where no other party has raced with it (R186,
R198). -/
def Obligations.TileOperationsRun : Prop :=
  (∀ (s : State) (o : TileOp) (before : List TileOp), nextTile s.core.tile.ops = some (o, before) → tileReady s o before = true →
    touchRuns (usesOf o.work).runs s = (s, .ok) → badOperand s.core o.work = none →
    ∃ t n, exec (.tileOpStart s.key) s = .next t ∧ t.core.tile.fPrev = s.time + n ∧
      t.core.tile.ops = s.core.tile.ops.map (fun x => if x.seq = o.seq then
        { o with start := some (o.start.getD s.time), finish := s.time + n, eff := some (tileEffect s.core o.work),
                 seen := some s.core.tileSeen } else x) ∧
      t.core.tile.m = s.core.tile.m ∧ t.core.tile.ps = s.core.tile.ps ∧ t.core.act.regs = s.core.act.regs ∧ t.core.spm = s.core.spm ∧
      (∀ m, o.work = .mz m → n = 1) ∧ (∀ p, o.work = .mzPs p → n = 1) ∧ (∀ p c x, o.work = .msca p c x → n = 16) ∧
      (∀ m x y, o.work = .mld m x y ∨ o.work = .mst m x y → n = 16) ∧ (∀ p x y, o.work = .mstPs p x y → n = 32)) ∧
  (∀ (s : State) (o : TileOp), dueTile s = some o → o.eff = some (tileEffect s.core o.work) → o.raced = [] →
    ∃ t, exec (.tileOpComplete s.key) s = .next t ∧
      { o with done := true } ∈ t.core.tile.ops ∧ t.core.tile.ops.map (fun x => x.seq) = s.core.tile.ops.map (fun x => x.seq) ∧
      (∀ a, t.rd a = s.rd a) ∧ t.core.act.regs = s.core.act.regs ∧
      let c := s.core
      let u := t.core.tile
      let now := c.tile
      let others (m : Fin 8) : Prop := ∀ n : Fin 8, n ≠ m → u.m[n] = now.m[n]
      let onlyM (m : Fin 8) (x : Nat → Nat → Nat) : Prop := others m ∧ u.ps = now.ps ∧ u.greg = now.greg ∧ t.core.spm = c.spm ∧
        ∀ i < 128, ∀ j < 64, mGet u.m[m] i j = x i j
      let onlyPs (p : Fin 2) (x : Nat → Nat → Word) (g : Word) : Prop := u.m = now.m ∧ t.core.spm = c.spm ∧
        u.ps[1 - p] = now.ps[1 - p] ∧ u.greg = now.greg.set 5 g ∧ ∀ i < 128, ∀ j < 64, psGet u.ps[p] i j = x i j
      let place (base pitch : Word) (i b : Nat) : Nat := c.physOff (tileAddr base pitch i b)
      let stored (base pitch : Word) (rows bytes : Nat) (x : Nat → Nat → Byte) : Prop := u.m = now.m ∧ u.ps = now.ps ∧ u.greg = now.greg ∧
        (∀ p, (∀ i < rows, ∀ b < bytes, p ≠ place base pitch i b) → t.core.spm.read p = c.spm.read p) ∧
        ∀ i < rows, ∀ b < bytes, (∀ k < rows, ∀ d < bytes, i < k ∨ i = k ∧ b < d → place base pitch k d ≠ place base pitch i b) →
          t.core.spm.read (place base pitch i b) = x i b
      let word (base pitch : Word) (i j : Nat) : Nat := ofBytes ((List.range 4).map fun k => c.spm.read (place base pitch i (4 * j + k)))
      let product (a : TOperand) (fmt : Word) (acc p : Bool) (wacc : Fin 8) (spare : Vec) : Prop :=
        let gs := rowGroups c o.work
        let codes := fetchA c a (opWidth (afmt fmt))
        let k : Fin 2 := if p then 1 else 0
        (narrowPair fmt = true → gs ≠ [] →
          let r := narrowResult fmt acc spare codes gs now.ps[k] (psTag now.greg[5] p)
          onlyPs k (fun i j => r.1.getD (64 * i + j) 0) (setPst now.greg[5] p r.2.1 r.2.2)) ∧
        (narrowPair fmt = false → onlyM wacc fun i j => (wideResult fmt codes gs now.m[wacc]).getD (64 * i + j) 0)
      (∀ m, o.work = .mz m → onlyM m fun _ _ => 0) ∧
      (o.work = .mzPs false → onlyPs 0 (fun _ _ => 0) ((now.greg[5] &&& ~~~0x100FF#64) ||| 0x7F)) ∧
      (o.work = .mzPs true → onlyPs 1 (fun _ _ => 0) ((now.greg[5] &&& ~~~0x2FF00#64) ||| 0x7F00)) ∧
      (∀ m base pitch, o.work = .mld m base pitch →
        onlyM m.m fun i j => if m.dir = .row then word base pitch i j else word base pitch j i) ∧
      (∀ m base pitch, o.work = .mst m base pitch →
        if m.dir = .row then stored base pitch 128 256 fun i b => BitVec.ofNat 8 (mGet now.m[m.m] i (b / 4) / 256 ^ (b % 4))
        else stored base pitch 64 512 fun i b => BitVec.ofNat 8 (mGet now.m[m.m] (b / 4) i / 256 ^ (b % 4))) ∧
      (∀ p base pitch, o.work = .mstPs p base pitch →
        stored base pitch 128 512 fun i b => BitVec.ofNat 8 ((psGet now.ps[(if p then 1 else 0 : Fin 2)] i (b / 8)).toNat / 256 ^ (b % 8))) ∧
      (∀ a b fmt acc p wacc spare, o.work = .mta a b fmt acc p wacc spare → product a fmt acc p wacc spare) ∧
      (∀ a base pitch groups fmt p wacc spare, o.work = .mtg a base pitch groups fmt p wacc spare → product a fmt true p wacc spare) ∧
      (∀ p k x, o.work = .msca p k x → onlyM k fun i j => scaleLane x (psTag now.greg[5] p)
        (.ofCode (psGet now.ps[(if p then 1 else 0 : Fin 2)] i j)) (mGet now.m[k] i j) i j))

/-- R189, R202, R204: a narrow product of I8 by I8 without accumulation gives in every lane the exact sum of its 32 products, with
the tag 0 and the overflow mark cleared. -/
def Obligations.IntegerProductIsExact : Prop :=
  ∀ (spare : Vec) (a b : List (List Nat)) (old : BitVec 524288) (tag : Int) (r j : Nat), r < 128 → j < 64 →
    let res := narrowResult 0x44 false spare a [⟨0, 128, b⟩] old tag
    res.1[64 * r + j]? = some (BitVec.ofInt 64 (((List.range 32).map fun k => sInt 8 (cell a r k) * sInt 8 (cell b k j)).sum)) ∧
    res.2 = (0, some false)

/-! ### Slot S5 -/

/-- R283, R286, R304, R299, R300, R308, R309: a copy instruction enters its command, with Q and AC of the descriptor's word 0x10, in the
time-sorted buffer, and waits while that is full; FBIND binds the pattern of its record at the given window; both trap on a descriptor
outside the scratchpad or misaligned; FBIND and FDROP wait while the feed still drains. That the release TIME is taken within the turn of
TIME at the issue is the model's choice (entry 13, DESIGN CHOICE). -/
def Obligations.TransferInstructions : Prop :=
  (∀ (s : State) (r : RegN) (i : Instr) (k : CopyKind),
    (i, k) ∈ [(Instr.copy r, CopyKind.move), (.copyg r, .gather), (.copys r, .scatter), (.copyr r, .reduce)] → s.guard r.g = true →
    let a := s.src r.a
    let off := a.toNat % 2 ^ 22
    let w := s.core.word (off + 16)
    (¬descFits s a → Traps i s 5 9 a) ∧ (descFits s a → a.toNat % 64 ≠ 0 → Traps i s 5 8 a) ∧
    (descFits s a → a.toNat % 64 = 0 → 1024 ≤ s.core.copies.length → Waits i s) ∧
    (descFits s a → a.toNat % 64 = 0 → s.core.copies.length < 1024 → touch (off + 16) 8 s = (s, .ok) →
      s.core.badAt (off + 16) 8 = false →
      ∃ c : Copy, Completes i s 5 (s.drawn.modCore fun x =>
          { x with copies := x.copies ++ [c], act := { x.act with copyNo := x.act.copyNo + 1 } }) ∧
        c.kind = k ∧ c.desc = off ∧ c.rel = s.time / 2 ^ 64 * 2 ^ 64 + (s.src r.b).toNat ∧
        c.u = s.time ∧ c.q.val = w / 2 ^ 24 % 4 ∧ c.ac.val = w / 2 ^ 26 % 4 ∧
        c.no = (s.core.act.copyNo + 1) % 2 ^ 32 ∧ c.st = 0)) ∧
  (∀ (s : State) (r : FedF), s.guard r.g = true →
    let a := s.src r.a
    let w := s.src r.b
    let off := a.toNat % 2 ^ 22
    let g := (List.range 8).map fun i => s.core.word (off + 8 * i)
    let p := patternOf g
    (¬descFits s a → Traps (.fbind r) s 5 9 a) ∧ (descFits s a → a.toNat % 64 ≠ 0 → Traps (.fbind r) s 5 8 a) ∧
    (descFits s a → a.toNat % 64 = 0 → touch off 64 s = (s, .ok) → s.core.badAt off 64 = false →
      (patternFields g p = false → Traps (.fbind r) s 5 9 a) ∧
      (patternFields g p = true → patternAligned p = false → Traps (.fbind r) s 5 8 (BitVec.ofNat 64 p.base)) ∧
      (patternFields g p = true → patternAligned p = true → patternRange p = false → Traps (.fbind r) s 5 9 a) ∧
      (patternFields g p = true → patternAligned p = true → patternRange p = true →
        (p.windows ≤ w.toNat → Traps (.fbind r) s 5 9 w) ∧
        (w.toNat < p.windows → s.core.draining r.f = true → Waits (.fbind r) s) ∧
        (w.toNat < p.windows → s.core.draining r.f = false →
          Completes (.fbind r) s 5 (s.modCore fun c => { c with feeds := c.feeds.set r.f (some
            { pat := p, win := w.toNat, pass := 0, fetchWin := w.toNat, fetchPass := 0, gated := false, buf := [], res := [] }) }))))) ∧
  (∀ (s : State) (r : FdropF), s.guard r.g = true →
    (s.core.draining r.f = true → Waits (.fdrop r) s) ∧
    (s.core.draining r.f = false →
      Completes (.fdrop r) s 5 (s.modCore fun c => { c with feeds := c.feeds.set r.f none })))

/-- R276, R277, R305, R306, R307, R229, R312, R330: HSET arms a FREE or FULL handle and traps on the others; HWAIT waits for its state and
phase, lands the handle's value, and is an acquire point at .stand where it sees FULL; HREL frees; QFENCE enters its fence and never
waits. -/
def Obligations.HandleInstructions : Prop :=
  ∀ (s : State),
    (∀ r : HsetF, s.guard r.g = true →
      let n := s.src r.n
      let h := s.core.handles[r.h]
      (2 ^ 32 ≤ n.toNat → Traps (.hset r) s 5 9 n) ∧
      (n.toNat < 2 ^ 32 → h.st = .filling ∨ h.st = .draining → Traps (.hset r) s 5 9 (BitVec.ofNat 64 (s.core.handleWord r.h))) ∧
      (n.toNat < 2 ^ 32 → h.st = .free ∨ h.st = .full →
        ∃ x : Handle, Completes (.hset r) s 5 (s.modCore fun c => { c with handles := c.handles.set r.h x }) ∧
          x.exp = n.toNat ∧ x.arr = 0 ∧ x.err = h.err ∧ x.ph = (h.ph ^^ (decide (n = 0) && !r.drain)) ∧
          x.st = (if n = 0 then (if r.drain then .free else .full) else if r.drain then .draining else .filling))) ∧
    (∀ r : HwaitF, s.guard r.g = true →
      let h := s.core.handles[r.h]
      let u := if h.st = .full then s.acquired else s
      let v : Word := BitVec.ofNat 64 (b2n h.err * 2 ^ 35 + b2n h.ph * 2 ^ 34 + HState.code h.st * 2 ^ 32 + h.arr)
      if h.st = r.st ∧ h.ph = r.ph then Completes (.hwait r) s 5 (u.flying 5 1 (some (v.setWidth 2048)) [] 0) else Waits (.hwait r) s) ∧
    (∀ r : HrelF, s.guard r.g = true →
      Completes (.hrel r) s 5 (s.modCore fun c => { c with handles := c.handles.set r.h { c.handles[r.h] with st := .free } })) ∧
    (∀ r : QmkF, s.guard r.g = true → ∃ fs : List Fence, (∀ f ∈ fs, f ∈ s.core.fences) ∧
      Completes (.qfence r) s 5 (s.drawn.modCore fun c => { c with
        fences := fs ++ [⟨r.qm, s.newId⟩], tile := if r.qm.getLsbD 4 then c.tile.fenced s.newId else c.tile }))

/-- R331, R332, R228: TENQ is checked as a load of 64 bytes, waits as a release point at .device and sends its request to the root, with a
result in flight; TSIG traps above signal 255, waits likewise, and sends its addition unless that is zero. -/
def Obligations.TaskInstructions : Prop :=
  ∀ (s : State),
    (∀ r : RegF, s.guard r.g = true →
      let a := s.src r.a
      (a.toNat % 64 ≠ 0 → Traps (.tenq r) s 5 8 a) ∧
      (a.toNat % 64 = 0 → s.peerPasses s.core.act.part (peerOf a) = false → Traps (.tenq r) s 5 0xA a) ∧
      (∀ s', a.toNat % 64 = 0 → s.peerPasses s.core.act.part (peerOf a) = true →
        (s.ownDevice (peerOf a) = true ∧ ∃ pa, translate (vaOf a) false s = (s', .hit pa)) ∨
          (s.ownDevice (peerOf a) = false ∧ s' = s) →
        (releaseReady .device s' = false → Waits (.tenq r) s) ∧
        (releaseReady .device s' = true → Yields (.tenq r) s fun t => SlotDone 5 s t ∧
          ∃ q : Tenq, t.tenqs = s.tenqs ++ [q] ∧ q.key = s.key ∧ q.part = s.core.act.part ∧ q.gva = a ∧
            q.det = (s.src r.b).getLsbD 0 ∧ q.arrived = none ∧ q.result = none ∧ Ahead s t (.tenqRequest q.id) ∧
            t.core.act.flights = s.core.act.flights ++ [
              { due := s.core.act.cyc + 14, cyc := s.core.act.cyc, slot := 5, latch := none,
                writes := if r.wb then [.s r.d 0] else [], flags := 0, need := some q.id, refresh := none }]))) ∧
    (∀ r : RegN, s.guard r.g = true →
      let a := s.src r.a
      let b : BitVec 32 := (s.src r.b).setWidth 32
      (255 < a.toNat → Traps (.tsig r) s 5 9 a) ∧
      (a.toNat ≤ 255 → releaseReady .device s = false → Waits (.tsig r) s) ∧
      (a.toNat ≤ 255 → releaseReady .device s = true →
        (b = 0 → Completes (.tsig r) s 5 s) ∧
        (b ≠ 0 → Yields (.tsig r) s fun t => SlotDone 5 s t ∧
          Ahead s t (.signalAdd s.core.act.part (Fin.ofNat 256 a.toNat) b (some (plyOf s.key.cl.val))))))

/-- R345-R349, R353, R354, R228, R229: BAR and XPH send an arrival that is counted four ticks later, wait until their own bit is cleared,
and then are acquire points; BARA only arrives; BARW waits for the phase; a second arrival in a phase traps; PAUSE ends IMM + 1 ticks
after its issue tick. -/
def Obligations.BarrierInstructions : Prop :=
  ∀ (s : State),
    (∀ (r : BarF) (i : Instr) (x : Bool), (i, x) ∈ [(Instr.bar r, false), (.xph r, true)] → s.guard r.g = true →
      ((∃ b, s.core.act.stage = some (.barSent b)) →
        (s.core.act.arrived.getLsbD r.b.val = true → Waits i s) ∧
        (s.core.act.arrived.getLsbD r.b.val = false → Completes i s 5 s.acquired)) ∧
      (s.core.act.stage = none →
        (s.core.act.arrived.getLsbD r.b.val = true → Traps i s 5 9 (BitVec.ofNat 64 r.b.val)) ∧
        (s.core.act.arrived.getLsbD r.b.val = false → releaseReady .stand s = false → Waits i s) ∧
        (s.core.act.arrived.getLsbD r.b.val = false → releaseReady .stand s = true → Yields i s fun t =>
          t.core.act.bun = s.core.act.bun ∧ t.core.act.stage = some (.barSent r.b) ∧ t.core.act.epoch = none ∧
          t.core.act.arrived = s.core.act.arrived ||| (1#16 <<< r.b.val) ∧
          (s.time + 4, Instr.barrierArrival s.core.act.gid r.b (Fin.ofNat 96 s.core.act.role) x) ∈ t.cal))) ∧
    (∀ r : BarF, s.guard r.g = true →
      (s.core.act.arrived.getLsbD r.b.val = true → Traps (.bara r) s 5 9 (BitVec.ofNat 64 r.b.val)) ∧
      (s.core.act.arrived.getLsbD r.b.val = false → releaseReady .stand s = false → Waits (.bara r) s) ∧
      (s.core.act.arrived.getLsbD r.b.val = false → releaseReady .stand s = true → Completes (.bara r) s 5
        { s.modCtx (fun c => { c with epoch := none, broken := false, arrived := c.arrived ||| (1#16 <<< r.b.val) }) with
          cal := s.cal ++ [(s.time + 4, .barrierArrival s.core.act.gid r.b (Fin.ofNat 96 s.core.act.role) false)] })) ∧
    (∀ (r : BarwF) (g : Gang), s.guard r.g = true → s.gang? s.core.act.gid = some g →
      (g.bars[r.b].ph = r.ph → Completes (.barw r) s 5 s.acquired) ∧ (g.bars[r.b].ph ≠ r.ph → Waits (.barw r) s)) ∧
    (∀ r : ImtF, s.guard r.g = true →
      (s.core.act.stage = none → Yields (.pause r) s fun t => t.core.act.bun = s.core.act.bun ∧
        t.core.act.stage = some (.pauseUntil (s.time + r.imm.toNat + 1)) ∧ (s.time + r.imm.toNat + 1, Instr.pauseExpiry s.key) ∈ t.cal) ∧
      (∀ n, s.core.act.stage = some (.pauseUntil n) → Waits (.pause r) s) ∧
      (s.core.act.stage = some .over → Completes (.pause r) s 5 s))

/-- R335, R337, R339-R345: ROLE gives a role's name and place; XSND puts its vector in the send buffer for the tick E + TK and XSEL waits
until the tick after it for what it captures there, which lands one cycle after the issue; outside a phase, after its break, and too
late, both trap; an XSND that a full buffer freezes is judged again on the tick it goes on, and traps with KIND 1 where that is too late. A
bound destination that is full keeps no XSEL from selecting, and the capture waits for room: the model's choice (entry 88, DESIGN CHOICE). -/
def Obligations.ExchangeInstructions : Prop :=
  ∀ (s : State),
    (∀ r : RegU, s.guard r.g = true →
      let a := s.src r.a
      let n := if a = BitVec.allOnes 64 then s.core.act.role else a.toNat
      (a ≠ BitVec.allOnes 64 → s.gangSize ≤ a.toNat → Traps (.role r) s 5 9 a) ∧
      (∀ k, a = BitVec.allOnes 64 ∨ a.toNat < s.gangSize → s.roleCore n = some k →
        Gives (.role r) s 5 1 r.wb r.d (BitVec.ofNat 64 (n * 2 ^ 24 + stripOf k.sl.val * 2 ^ 16 + k.cl.val * 2 ^ 8 + k.sl.val)))) ∧
    (∀ (r : XrlF) (i : Instr), i ∈ [Instr.xsnd r, .xsel r] → s.guard r.g = true → s.core.act.stage = none →
      (s.core.act.epoch = none → s.core.act.broken = false → Traps i s 5 9 (r.tk.setWidth 64)) ∧
      (s.core.act.epoch = none → s.core.act.broken = true →
        Traps i s 5 0x14 (BitVec.ofNat 64 (2 * 2 ^ 20 + stripOf s.key.sl.val * 2 ^ 16 + b2n r.west * 2 ^ 14 + r.tk.toNat))) ∧
      (∀ e, s.core.act.epoch = some e → e + r.tk.toNat < s.time →
        Traps i s 5 0x14 (BitVec.ofNat 64 (2 ^ 20 + stripOf s.key.sl.val * 2 ^ 16 + b2n r.west * 2 ^ 14 + (s.time - e) % 2 ^ 14)))) ∧
    (∀ r : XrlF, s.guard r.g = true → s.core.act.stage = some .sending →
      (s.core.readV r.v = .empty → Waits (.xsnd r) s) ∧
      ∀ x, s.core.readV r.v = .val x →
        (8 ≤ s.core.sendBuf.length → Waits (.xsnd r) s) ∧
        (∀ e, s.core.sendBuf.length < 8 → s.core.act.epoch = some e → e + r.tk.toNat < s.time →
          Traps (.xsnd r) s 5 0x14
            (BitVec.ofNat 64 (2 ^ 20 + stripOf s.key.sl.val * 2 ^ 16 + b2n r.west * 2 ^ 14 + (s.time - e) % 2 ^ 14)))) ∧
    (∀ (r : XrlF) (e : Nat), s.guard r.g = true → s.core.act.epoch = some e → s.time ≤ e + r.tk.toNat →
      (s.core.readV r.v = .empty → Waits (.xsnd r) s) ∧
      (∀ c, s.core.readV r.v = .bad c → Traps (.xsnd r) s 5 9 (BitVec.ofNat 64 c)) ∧
      (∀ x, s.core.readV r.v = .val x → 8 ≤ s.core.sendBuf.length → Waits (.xsnd r) s) ∧
      (∀ x, s.core.readV r.v = .val x → s.core.sendBuf.length < 8 → Yields (.xsnd r) s fun t => SlotDone 5 s t ∧
        ∃ b : RailBeat, t.rails = s.rails ++ [b] ∧ t.core.sendBuf = s.core.sendBuf ++ [b.id] ∧ b.x = x ∧ b.west = r.west ∧
          b.cl = s.key.cl.val ∧ b.strip = stripOf s.key.sl.val ∧ b.tick = e + r.tk.toNat ∧ b.from_ = s.key ∧ b.entered = false ∧
          b.dead = none ∧ (s.time < b.tick → (b.tick, Instr.railInjection b.id false) ∈ t.cal) ∧
          (s.time = b.tick → Instr.railInjection b.id false ∈ t.agenda)) ∧
      (s.core.act.stage = none →
        (∀ c, s.core.dstReady r.v = .bad c → Traps (.xsel r) s 5 9 (BitVec.ofNat 64 c)) ∧
        ((∀ c, s.core.dstReady r.v ≠ .bad c) →
          (∀ st t, s.railHit r.west (e + r.tk.toNat) = some (st, t) → Traps (.xsel r) s 5 0x14
            (BitVec.ofNat 64 (st * 2 ^ 16 + b2n r.west * 2 ^ 14 + (t - e) % 2 ^ 14))) ∧
          (s.railHit r.west (e + r.tk.toNat) = none → Yields (.xsel r) s fun t =>
            t.core.act.bun = s.core.act.bun ∧ t.core.act.stage = some (.selecting (e + r.tk.toNat)) ∧
            (s.time < e + r.tk.toNat → (e + r.tk.toNat, Instr.railCapture s.key) ∈ t.cal))))) ∧
    (∀ r : XrlF, s.guard r.g = true →
      (∀ n, s.core.act.stage = some (.selecting n) → Waits (.xsel r) s) ∧
      (∀ x, s.core.act.stage = some (.captured x) →
        (∀ i, r.v = .v i → Completes (.xsel r) s 5 (s.flying 5 1 (some x) [.v i x] 0)) ∧
        (s.core.dstReady r.v = .full → Waits (.xsel r) s) ∧
        (∀ i, r.v = .f i → s.core.dstReady r.v = .ok → Completes (.xsel r) s 5
          ((s.modCore fun c => c.reserve i).flying 5 1 (some x) [.feed i (s.core.resKey i) x] 0)) ∧
        (r.v = .none → Completes (.xsel r) s 5 (s.flying 5 1 (some x) [] 0))))

/-- R362, R363, R366, R368, R372-R375: the Clearing instructions' checks in their order; CST and CXCH enter one entry in the queue of their
ply's station, on the tick after the issue or on the one that a freeze ends, and wait while the partition has 64 there or places that
free are owed to cores already frozen; CXCH has its result in flight; CLD waits for its own entries and gives the bytes of the ply's
mirror, or takes a machine check. The keeper copy and the mirrors stand. That cores already frozen come first is the model's choice (entry
72, DESIGN CHOICE). -/
def Obligations.ClearingInstructions : Prop :=
  ∀ (s : State) (a v : Word),
    let w := (s.part s.core.act.part).clalloc
    let off := a.toNat % 2 ^ 23
    let n := if a.getLsbD 24 then 8 else 4
    let size := 4096 * (w.toNat / 2 ^ 44 % 4096)
    let addr := 4096 * (w.toNat / 2 ^ 12 % 2048) + off
    let ply := plyOf s.key.cl.val
    let load := stationLoad s ply.val s.core.act.part.val +
      (if s.core.act.waitsForQueue then 0 else queueWaiters s ply s.core.act.part)
    let checked (i : Instr) (atomic : Bool) : Prop :=
      (¬clearingFits a atomic → Traps i s 5 9 a) ∧ (clearingFits a atomic → off % n ≠ 0 → Traps i s 5 8 a) ∧
      (clearingFits a atomic → off % n = 0 → size < off + n → Traps i s 5 9 a)
    let entered (t : State) (kind op : Nat) : Prop :=
      ∃ q : CQueued, t.clr.queue = s.clr.queue ++ [q] ∧ q.station = ply.val ∧ q.part = s.core.act.part.val ∧
        q.at_ = (if s.core.act.waitsForQueue then s.time else s.time + 1) ∧
        q.e.kind = kind ∧ q.e.op = op ∧ q.e.dbl = a.getLsbD 24 ∧ q.e.addr = addr ∧ q.e.data.toNat = v.toNat % 2 ^ (8 * n) ∧
        q.e.key = some s.key ∧ t.clr.keeper = s.clr.keeper ∧ t.plies = s.plies ∧
        (kind = 2 → ∃ f, t.core.act.flights = s.core.act.flights ++ [f] ∧ f.need = some q.e.req ∧ f.due = s.core.act.cyc + 14)
    (∀ r : RegN, s.guard r.g = true → s.src r.a = a → s.src r.b = v → checked (.cst r) false ∧
      (clearingFits a false → off % n = 0 → off + n ≤ size →
        (64 ≤ load → Waits (.cst r) s) ∧
        (load < 64 → Yields (.cst r) s fun t => SlotDone 5 s t ∧ entered t 1 0 ∧
          t.core.act.flights = s.core.act.flights))) ∧
    (∀ r : RegF, s.guard r.g = true → s.src r.a = a → s.src r.b = v → checked (.cxch r) true ∧
      (clearingFits a true → off % n = 0 → off + n ≤ size →
        (64 ≤ load → Waits (.cxch r) s) ∧
        (load < 64 → Yields (.cxch r) s fun t => SlotDone 5 s t ∧
          entered t 2 (a.toNat / 2 ^ 28 % 8)))) ∧
    (∀ r : RegU, s.guard r.g = true → s.src r.a = a → checked (.cld r) false ∧
      (clearingFits a false → off % n = 0 → off + n ≤ size →
        (s.plies[ply].stale = true ∨ pendingOwn s addr n = true → Waits (.cld r) s) ∧
        (s.plies[ply].stale = false → pendingOwn s addr n = false → s.plies[ply].bad = true → Traps (.cld r) s 5 0x13 a) ∧
        (s.plies[ply].stale = false → pendingOwn s addr n = false → s.plies[ply].bad = false →
          Gives (.cld r) s 5 3 r.wb r.d (BitVec.ofNat 64 (ofBytes (s.plies[ply].mirror.readN addr n))))))

/-- R311, R379, R380, R384-R386, R394, R400-R405, R449, R480: PUB copies its descriptor and its list at its issue, waits for the release
point and for a record, and then opens the record under a new block id and queues its notices; LAND, DECL and RECL enter the queue, LAND
with the answer whether the table has room; NSTAT reads the tables; CNT gives an event counter without the events of its issue tick. From
the tick after its issue the queue's first operation goes on, one step a tick and not past a fence: LAND posts, replaces or removes a
landing buffer, DECL declines a notice, RECL reclaims a block, and PUB sends a notice, with the last of which the block is PUBLISHED.

The second part says where they complete. With a true guard LAND, DECL, RECL, NSTAT and CNT complete on every operand in their ranges,
whatever the tables hold: the queue takes the command behind those that wait, and the result is in flight. PUB completes on a valid
descriptor and list once the release point is passed and a record is free, at its issue or as its freeze ends. -/
def Obligations.PortInstructions : Prop :=
  (∀ (s : State),
     (∀ (r : RegU) (i gen : Nat), s.guard r.g = true →
       let opens (g : List Nat) (cons : List Word) : Prop :=
         Yields (.pub r) s fun t => SlotDone 5 s t ∧
           ∃ b m, t.core.port.blocks = b :: s.core.port.blocks.filter (fun x => x.idx != i) ∧
             t.core.port.ops = s.core.port.ops ++ [(s.newId, .pub (BitVec.ofNat 32 (b.gen * 256 + i)) cons m)] ∧
             b.idx = i ∧ b.gen = (gen + 1) % 2 ^ 24 ∧ b.st = 1 ∧ b.rcnt = cons.length ∧ b.size = g.getD 1 0 % 2 ^ 25 ∧
             b.tag.toNat = g.getD 1 0 / 2 ^ 32 % 2 ^ 32 ∧ m.tag = b.tag ∧ m.size = b.size ∧ m.loc = b.loc ∧
             ∃ f, t.core.act.flights = s.core.act.flights ++ [f] ∧ f.due = s.core.act.cyc + 4 ∧
               f.latch = some (((BitVec.ofNat 32 (b.gen * 256 + i)).setWidth 64).setWidth 2048)
       let freezes (g : List Nat) (cons : List Word) (n : Option Nat) : Prop := Waits (.pub r) s ∧
         Yields (.pub r) s fun t => t.core.act.stage = some (.publishing g cons n)
       ((∀ g cons n, s.core.act.stage ≠ some (.publishing g cons n)) → s.core.act.stage ≠ some .over →
         let a := s.src r.a
         let off := a.toNat % 2 ^ 22
         let g := (List.range 8).map fun k => s.core.word (off + 8 * k)
         let n := g.getD 3 0 / 2 ^ 24 % 2 ^ 7
         let cl := g.getD 3 0 % 2 ^ 22
         let cons := (List.range n).map fun k => BitVec.ofNat 64 (s.core.word (cl + 8 * k))
         (¬descFits s a → Traps (.pub r) s 5 9 a) ∧ (descFits s a → a.toNat % 64 ≠ 0 → Traps (.pub r) s 5 8 a) ∧
         (descFits s a → a.toNat % 64 = 0 → touch off 64 s = (s, .ok) → s.core.badAt off 64 = false →
           (pubValid g = false → Traps (.pub r) s 5 9 a) ∧
           (pubValid g = true → touch cl (8 * n) s = (s, .ok) → s.core.badAt cl (8 * n) = false →
             (∀ c w, consBad s cons = some (c, w) → Traps (.pub r) s 5 c w) ∧
             (consBad s cons = none → releaseReady .stand s = false → freezes g cons none) ∧
             (consBad s cons = none → releaseReady .stand s = true → s.core.port.freeBlock = none →
               freezes g cons (some (s.time + 4096)) ∧ Yields (.pub r) s fun t => (s.time + 4096, Instr.pubTimeout s.key) ∈ t.cal) ∧
             (consBad s cons = none → releaseReady .stand s = true → s.core.port.freeBlock = some (i, gen) → opens g cons)))) ∧
       (∀ g cons n, s.core.act.stage = some (.publishing g cons n) →
         (n = none → releaseReady .stand s = false → freezes g cons none) ∧
         (∀ e, n = some e → s.core.port.freeBlock = none → freezes g cons (some e)) ∧
         (n ≠ none ∨ releaseReady .stand s = true → s.core.port.freeBlock = some (i, gen) → opens g cons)) ∧
       (s.core.act.stage = some .over → Gives (.pub r) s 5 4 r.wb r.d (BitVec.ofNat 64 (2 ^ 63 + 2 ^ 56)))) ∧
     (∀ r : RegF, s.guard r.g = true →
       let a := s.src r.a
       let b := s.src r.b
       let base := b.toNat % 2 ^ 22
       let size := b.toNat / 2 ^ 32 % 2 ^ 22
       let tag : BitVec 32 := a.setWidth 32
       let fits := a.toNat / 2 ^ 40 = 0 ∧ b.toNat / 2 ^ 22 % 2 ^ 10 = 0 ∧ b.toNat / 2 ^ 54 = 0 ∧ size % 64 = 0 ∧
         base + size ≤ 0x300000 ∧ base % 64 = 0
       (fits → size ≠ 0 → s.core.port.ops = [] → s.core.port.buffer tag base = none →
         (512 ≤ s.core.port.used → Gives (.land r) s 5 2 r.wb r.d 1) ∧
         (s.core.port.used < 512 → Completes (.land r) s 5
           ((s.queued (.land tag (Fin.ofNat 256 (a.toNat / 2 ^ 32)) base size true)).flying 5 2 (some 0) (if r.wb then [.s r.d 0] else []) 0)))) ∧
     (∀ r : RegO, s.guard r.g = true →
       (512 ≤ (s.src r.a).toNat → Traps (.decl r) s 5 9 (s.src r.a)) ∧
       ((s.src r.a).toNat < 512 → Completes (.decl r) s 5 (s.queued (.decl (s.src r.a).toNat))) ∧
       (2 ^ 32 ≤ (s.src r.a).toNat → Traps (.recl r) s 5 9 (s.src r.a)) ∧
       ((s.src r.a).toNat < 2 ^ 32 → Completes (.recl r) s 5 (s.queued (.recl ((s.src r.a).setWidth 32))))) ∧
     (∀ (seq : Nat) (op : PortOp) (rest : List (Nat × PortOp)), s.core.port.ops = (seq, op) :: rest →
       (fenceBlocks s 5 seq = true → portTick s = s) ∧
       (fenceBlocks s 5 seq = false → let t := portTick s
         t.core.act.regs = s.core.act.regs ∧ t.core.spm = s.core.spm ∧
         (∀ tag h base size takes, op = .land tag h base size takes →
           (s.core.port.buffer tag base = none → size ≠ 0 → s.core.port.inb.length < 512 → t.core.port.ops = rest ∧
             ∃ e ∈ t.core.port.inb, e.e = .landing tag base size 0 h ∧ e.idx < 512 ∧ ∀ x ∈ s.core.port.inb, x.idx ≠ e.idx) ∧
           (∀ e, s.core.port.buffer tag base = some e → (s.core.port.pulls.any fun p => p.buf == e.idx) = true → t = s) ∧
           (∀ e, s.core.port.buffer tag base = some e → (s.core.port.pulls.any fun p => p.buf == e.idx) = false → t.core.port.ops = rest ∧
             (size ≠ 0 → ∃ x ∈ t.core.port.inb, x.idx = e.idx ∧ x.e = .landing tag base size 0 h) ∧
             (size = 0 → (s.part s.core.act.part).hold = [] → ∀ x ∈ t.core.port.inb, x.idx ≠ e.idx))) ∧
         (∀ i (e : InSlot) (n : Notice) (src : PortName) (st d : Nat) (loc : Word), op = .decl i →
           s.core.port.inb.find? (fun x => x.idx == i) = some e → e.e = .notice n src st loc d → t.core.port.ops = rest ∧
           (st = 1 ∨ st = 2 → (∃ x ∈ t.core.port.inb, x.idx = i ∧ x.e = .notice n src 5 loc d) ∧
             (n.peer = 4095 → s.farPort src = false → (s.time + 10, Instr.releaseMessage src n.block) ∈ t.cal) ∧
             (n.peer ≠ 4095 → s.routeWaits n.peer = false → t.out = s.out ++
               (if s.pathUp n.peer (n.block.getLsbD 0) = true then [.release n.peer src.task src.gang src.role n.block] else []))) ∧
           (st = 3 → t.core.port.inb = s.core.port.inb) ∧
           (st = 4 → (s.part s.core.act.part).hold = [] → ∀ x ∈ t.core.port.inb, x.idx ≠ i)) ∧
         (∀ block, op = .recl block → t.core.port.ops = rest ∧ t.core.port.blocks = s.core.port.blocks.map fun b =>
           if b.idx = block.toNat % 256 ∧ b.gen = block.toNat / 256 ∧ (b.st = 2 ∨ b.st = 3 ∨ b.st = 4) then { b with st := 6 } else b) ∧
         (∀ block w ws n, op = .pub block (w :: ws) n → noticeWaits w s = false → s.ownDevice (consumer w s).2 = true →
           s.farPort (consumer w s).1 = false →
           (s.time + 10, Instr.noticeArrival { n with peer := 4095 } (consumer w s).1 s.core.act.port) ∈ t.cal ∧
           (ws ≠ [] → t.core.port.ops = (seq, .pub block ws n) :: rest ∧ t.core.port.blocks = s.core.port.blocks) ∧
           (ws = [] → t.core.port.ops = rest ∧ ∀ b, s.core.port.block? block = some b → b.st = 1 →
             t.core.port.block? block = some { b with st := 2, due := s.time + b.timeout })))) ∧
     (∀ r : RegU, s.guard r.g = true →
       let a := s.src r.a
       let kind := a.toNat / 2 ^ 60
       let x := a.toNat % 2 ^ 60
       (4 < kind ∨ kind ≤ 1 ∧ 511 < x → Traps (.nstat r) s 5 9 a) ∧
       (kind ≤ 1 → x ≤ 511 → s.core.port.inb.find? (fun y => y.idx == x) = none → Gives (.nstat r) s 5 2 r.wb r.d 0) ∧
       (∀ (e : InSlot) (n : Notice) (src : PortName) (st d : Nat) (loc : Word), x ≤ 511 →
         s.core.port.inb.find? (fun y => y.idx == x) = some e → e.e = .notice n src st loc d →
         (kind = 0 → Gives (.nstat r) s 5 2 r.wb r.d (BitVec.ofNat 64 (n.tag.toNat * 2 ^ 32 + st * 2 ^ 29 + n.size))) ∧
         (kind = 1 → Gives (.nstat r) s 5 2 r.wb r.d loc)) ∧
       (∀ (e : InSlot) (tag : BitVec 32) (base size used : Nat) (h : Fin 256), x ≤ 511 →
         s.core.port.inb.find? (fun y => y.idx == x) = some e → e.e = .landing tag base size used h →
         (kind = 0 → Gives (.nstat r) s 5 2 r.wb r.d (BitVec.ofNat 64 (tag.toNat * 2 ^ 32 + 7 * 2 ^ 29 + base))) ∧
         (kind = 1 → Gives (.nstat r) s 5 2 r.wb r.d (BitVec.ofNat 64 (h.val * 2 ^ 56 + used * 2 ^ 32 + size)))) ∧
       (kind = 2 → (∀ e ∈ s.core.port.inb, e.tag.toNat = x % 2 ^ 32 → x.testBit (32 + e.state) = false) →
         Gives (.nstat r) s 5 2 r.wb r.d 0xFFFFFFFF) ∧
       (63 < a.toNat → Traps (.cnt r) s 5 9 a) ∧
       (∀ e : Fin 25, a.toNat = e.val → Gives (.cnt r) s 5 2 r.wb r.d ((s.core.evTick[e]).setWidth 64)) ∧
       (25 ≤ a.toNat → a.toNat ≤ 63 → Gives (.cnt r) s 5 2 r.wb r.d 0))) ∧
  (∀ (s : State),
     (∀ r : RegF, s.guard r.g = true →
       let a := s.src r.a
       let b := s.src r.b
       let base := b.toNat % 2 ^ 22
       let size := b.toNat / 2 ^ 32 % 2 ^ 22
       a.toNat < 2 ^ 40 → b.toNat / 2 ^ 22 % 2 ^ 10 = 0 → b.toNat < 2 ^ 54 → size % 64 = 0 → base + size ≤ 0x300000 → base % 64 = 0 →
       ∃ t, exec (.land r) s = .next t ∧ SlotDone 5 s t ∧ ∃ x : Word,
         t.core.act.flights = (s.flying 5 2 (some (x.setWidth 2048)) (if r.wb then [.s r.d x] else []) 0).core.act.flights ∧
         (x = 0 ∨ x = 1) ∧ (x = 1 → 512 ≤ s.core.port.used ∧ t.core.port = s.core.port) ∧
         (x = 0 → ∃ takes, t.core.port.ops = s.core.port.ops ++
           [(s.newId, .land (a.setWidth 32) (Fin.ofNat 256 (a.toNat / 2 ^ 32)) base size takes)])) ∧
     (∀ r : RegU, s.guard r.g = true →
       ((s.src r.a).toNat / 2 ^ 60 ≤ 4 → ((s.src r.a).toNat / 2 ^ 60 ≤ 1 → (s.src r.a).toNat % 2 ^ 60 ≤ 511) →
         ∃ x : Word, Completes (.nstat r) s 5 (s.flying 5 2 (some (x.setWidth 2048)) (if r.wb then [.s r.d x] else []) 0)) ∧
       ((s.src r.a).toNat ≤ 63 →
         ∃ x : Word, Completes (.cnt r) s 5 (s.flying 5 2 (some (x.setWidth 2048)) (if r.wb then [.s r.d x] else []) 0))) ∧
     (∀ (r : RegU) (i gen : Nat), s.guard r.g = true → s.core.port.freeBlock = some (i, gen) →
       let opened : Prop := ∃ t, exec (.pub r) s = .next t ∧ SlotDone 5 s t ∧
         (∃ b ∈ t.core.port.blocks, b.idx = i ∧ b.st = 1 ∧ b.gen = (gen + 1) % 2 ^ 24) ∧
         ∃ f, t.core.act.flights = s.core.act.flights ++ [f] ∧ f.slot = 5 ∧ f.due = s.core.act.cyc + 4
       let a := s.src r.a
       let off := a.toNat % 2 ^ 22
       let g := (List.range 8).map fun k => s.core.word (off + 8 * k)
       let n := g.getD 3 0 / 2 ^ 24 % 2 ^ 7
       let cl := g.getD 3 0 % 2 ^ 22
       (s.core.act.stage = none → descFits s a → a.toNat % 64 = 0 → touch off 64 s = (s, .ok) → s.core.badAt off 64 = false →
         pubValid g = true → touch cl (8 * n) s = (s, .ok) → s.core.badAt cl (8 * n) = false →
         consBad s ((List.range n).map fun k => BitVec.ofNat 64 (s.core.word (cl + 8 * k))) = none → releaseReady .stand s = true →
         opened) ∧
       (∀ g cons, s.core.act.stage = some (.publishing g cons none) → releaseReady .stand s = true → opened) ∧
       (∀ g cons n, s.core.act.stage = some (.publishing g cons (some n)) → opened)))

/-! ### Events of the device -/

/-- R23, R435, R16, R18, R19, R20, R26: the bring-up steps in their order; a PLYCTL target that needs no step, or whose condition holds, is
taken and the others set ERR; a step ends within its longest time and leaves the ply in its state, with zeroed cores where power comes back;
AUTO enters P1 after 4,096 idle ticks; a partition above its power share is throttled. That a target is judged at the write for its whole
path, and leaves TARGET where it is refused, is the model's choice (entry 47, DESIGN CHOICE). -/
def Obligations.BringUpAndPowerStates : Prop :=
  ∀ (s : State),
    (s.bringUp = 1 → Yields .bringUpStep s fun t => t.bringUp = 2 ∧ t.isReady = s.isReady ∧ Ahead s t .bringUpStep) ∧
    (s.bringUp = 2 → firmwareAdmitted = true → Yields .bringUpStep s fun t =>
      t.bringUp = 3 ∧ t.fwMeasure = Config.shake256 Config.firmwareImage ∧ Ahead s t .bringUpStep) ∧
    (s.bringUp = 2 → firmwareAdmitted = false → Yields .bringUpStep s fun t =>
      t.bringUp = 2 ∧ t.rejected = true ∧ t.isReady = s.isReady ∧ t.cal = s.cal) ∧
    (firmwareAdmitted = true ↔ Config.shake256 Config.firmwareKey = Config.fusedKeyHash ∧ Config.firmwareSignature.length = 3309 ∧
      Config.verifies Config.firmwareKey (Config.shake256 Config.firmwareImage) Config.firmwareSignature = true ∧
      Config.fusedCounter ≤ Config.firmwareVersion) ∧
    (s.bringUp = 3 → Yields .bringUpStep s fun t => t.bringUp = 4 ∧ t.clr.keeper = [] ∧ Ahead s t .bringUpStep ∧
      ∀ n : Fin 64, t.link.ports[n].getLsbD 63 = true) ∧
    (s.bringUp = 4 → Yields .bringUpStep s fun t => t.bringUp = 5 ∧ (Config.straps.getLsbD 27 = false → t.time = 0) ∧
      ∀ n : Fin 64, t.link.ports[n].getLsbD 63 = false) ∧
    (s.bringUp = 5 → Yields .bringUpStep s fun t => t.bringUp = 6 ∧ t.clr.shadow = [] ∧ t.clr.active = [] ∧ Ahead s t .bringUpStep) ∧
    (s.bringUp = 6 → (∀ p : Fin 12, s.plies[p].st = .p0) → Yields .bringUpStep s fun t => t.bringUp = 7 ∧ Ahead s t .bringUpStep) ∧
    (s.bringUp = 6 → s.plies[(0 : Fin 12)].st = .p3 → s.plies[(0 : Fin 12)].busy = false → Yields .bringUpStep s fun t =>
      t.bringUp = 6 ∧ t.plies[(0 : Fin 12)].busy = true ∧ t.plies[(0 : Fin 12)].target = .p0 ∧ t.clr.resyncReq = s.clr.resyncReq ++ [0] ∧
      (s.time + 8500, Instr.bringUpStep) ∈ t.cal) ∧
    (s.bringUp = 7 → failingCores = [] → Yields .bringUpStep s fun t => t.bringUp = 8 ∧ t.lines = [] ∧ Ahead s t .bringUpStep) ∧
    (s.bringUp = 7 → failingCores ≠ [] → Yields .bringUpStep s fun t =>
      t.bringUp = 7 ∧ t.failed = failingCores ∧ t.isReady = s.isReady ∧ t.cal = s.cal) ∧
    (s.bringUp = 8 → Yields .bringUpStep s fun t => t.isReady = true) ∧
    (∀ (p : Fin 12) (e : Instr) (goal : PState),
      (e, goal) ∈ [(Instr.plyctlTargetP0 p, PState.p0), (.plyctlTargetP1 p, .p1), (.plyctlTargetP2 p, .p2), (.plyctlTargetP3 p, .p3)] →
      let y := s.plies[p]
      let refused := s.plies.set p { y with err := true }
      (y.busy = true → Yields e s fun t => t.plies = refused) ∧
      (y.busy = false → y.st = goal → Yields e s fun t => t.plies = s.plies.set p { y with target := goal }) ∧
      (y.busy = false → y.st ≠ goal → plyPath s p goal 3 y.st = false → Yields e s fun t => t.plies = refused) ∧
      (y.busy = false → y.st ≠ goal → plyMay s p y.st (y.st.toward goal) = false → plyPath s p goal 3 y.st = false) ∧
      (y.busy = false → y.st ≠ goal → plyPath s p goal 3 y.st = true → Yields e s fun t =>
        t.plies[p].busy = true ∧ t.plies[p].target = goal ∧ t.plies[p].st = y.st ∧ (∀ q : Fin 12, q ≠ p → t.plies[q] = s.plies[q]) ∧
        ∃ d, s.time < d ∧ d ≤ s.time + plyLongest y.st (y.st.toward goal) ∧ (d, Instr.plyTransitionDone p) ∈ t.cal)) ∧
    (∀ p : Fin 12,
      let y := s.plies[p]
      (y.busy = true → y.st.toward y.goal = y.goal → ¬(y.st = .p3 ∧ y.stale = true) → Yields (.plyTransitionDone p) s fun t =>
        t.plies[p].st = y.goal ∧ t.plies[p].busy = false ∧ (∀ q : Fin 12, q ≠ p → t.plies[q] = s.plies[q]) ∧
        (y.st = .p2 → y.goal = .p0 → ∀ k : CoreKey, plyOf k.cl.val = p → (t.coreAt k).spm = [])) ∧
      (y.busy = true → y.st = .p3 → y.stale = true → Yields (.plyTransitionDone p) s fun t =>
        t.plies = s.plies ∧ (s.time + 1, Instr.plyTransitionDone p) ∈ t.cal) ∧
      (y.st = .p0 → y.auto = true → y.busy = false → 4096 ≤ y.idle → plyIdle s p = true → oneOwner s p = true →
        Yields (.autoP1Entry p) s fun t => t.plies[p].busy = true ∧ t.plies[p].goal = .p1 ∧ t.plies[p].st = .p0 ∧
          ∃ d, s.time < d ∧ d ≤ s.time + 32 ∧ (d, Instr.plyTransitionDone p) ∈ t.cal)) ∧
    (∀ (p : Fin 24) (b : Bool), Yields (.powerShareLimit p b) s fun t =>
      (t.part p).throttled = b ∧ ∀ q : Fin 24, q ≠ p → t.part q = s.part q)

/-- R24, R28, R240, R241, R329, R423, R424: the patrol scrub marks a line and has it recorded; the forecast dates every ACTF 3,328 ticks
ahead; a posted write is numbered and changes no byte yet, or is recorded where it faults; a read returns the bytes; the watermark beat
carries each watermark; a register write outside the map, before READY, or of a register that the function does not reach changes
nothing, and no VF reaches a register of the PF. That a register write before READY changes nothing is the model's choice (entry
56, DEDUCED). -/
def Obligations.HostEvents : Prop :=
  ∀ (s : State), s.sound →
    (∀ line, Yields (.patrolScrub (.line line) true) s fun t =>
      t.lineBad (128 * line) = true ∧ (∀ a, t.rd a = s.rd a) ∧ ∀ p, s.owner (128 * line) = some p → Recorded s t p 0x43) ∧
    (∀ p : Fin 12, Yields (.patrolScrub (.mirror p) true) s fun t => t.plies[p].bad = true ∧ t.plies[p].mirror = s.plies[p].mirror) ∧
    (∀ (k : CoreKey) (off : Nat) (m : Fin 8),
      (Yields (.patrolScrub (.pad k off) true) s fun t => off ∈ (t.coreAt k).spBad ∧ (t.coreAt k).spm = (s.coreAt k).spm) ∧
      (Yields (.patrolScrub (.mreg k m) true) s fun t => m ∈ (t.coreAt k).tile.mBad ∧ (t.coreAt k).tile.m = (s.coreAt k).tile.m)) ∧
    (∀ a, Yields (.patrolScrub a false) s (· = s)) ∧
    (s.time % 256 = 0 → Yields .activityForecast s fun t => ∀ n : Fin 13,
      t.actf[n].getLsbD 0 = true ∧ t.actf[n].toNat / 2 ^ 32 = (s.time + 3328) % 2 ^ 32) ∧
    (∀ (fn : Fin 25) (off : Nat) (data : List Byte),
      (∀ pas, bridge fn true off data.length s = .ok pas → Yields (.hostPostedWrite fn off data) s fun t =>
        (∀ a, t.rd a = s.rd a) ∧ ∃ w, t.hostW = s.hostW ++ [w] ∧ w.fn = fn.val ∧ w.num = lookupD s.hostN fn.val 0 + 1 ∧
          lookupD t.hostN fn.val 0 = w.num ∧ w.pend = none ∧ w.cells = (pas.zip data).filter fun c => decide (c.1 < 768 * 2 ^ 30)) ∧
      (∀ p va r l, vfPart fn = some p → bridge fn true off data.length s = .fault va r l → Yields (.hostPostedWrite fn off data) s fun t =>
        t.hostW = s.hostW ∧ Recorded s t p 0x11) ∧
      (∀ n pas, bridge fn false off n s = .ok pas → (∀ a ∈ pas, a < 768 * 2 ^ 30 ∧ s.lineBad a = false) →
        Yields (.hostRead fn off n) s fun t => t.out = s.out ++ [.readData fn.val (pas.map s.rd)])) ∧
    (∀ (late : Bool) (fn : Fin 25), s.time % 64 = (if late then 32 else 0) → decide (16 ≤ fn.val) = late → s.watermark fn.val ≠ 0 →
      s.beatOut 12 31 = false → s.resendOf 12 31 = none → Yields (.hostWatermarkBeat late) s fun t =>
        ∃ b, t.clr.beats = s.clr.beats ++ [b] ∧ b.station = 12 ∧ b.part = 31 ∧ (s.time + 4, Instr.beatApplied b.id) ∈ t.cal ∧
          ∃ e ∈ b.entries, e.kind = 3 ∧ e.addr = fn.val ∧ e.data = BitVec.ofNat 64 (s.watermark fn.val)) ∧
    (∀ (fn : Fin 25) (off n : Nat) (val : Word),
      (s.isReady = false ∨ 2 ^ 23 ≤ off ∨ n ≠ 4 ∧ n ≠ 8 ∨ off % n ≠ 0 ∨ regAt (off / 8 * 8) = none →
        Yields (.registerWrite fn off n val) s (· = s)) ∧
      (∀ r, regAt (off / 8 * 8) = some r → regSeen fn r s = false → Yields (.registerWrite fn off n val) s (· = s)) ∧
      (∀ p : Fin 24, s.isReady = true → (fn.val = 0 ∨ fn.val = p.val + 1 ∧ (s.part p).state ≠ 0) →
        Yields (.registerWrite fn (0x400000 + p.val * 0x20000 + 0x120) 8 val) s fun t =>
          (t.part p).bwin = val &&& 0x000FFFFFF0000000 ∧ ∀ q : Fin 24, q ≠ p → t.part q = s.part q)) ∧
    (∀ (fn : Fin 25) (p : Fin 24) (o : Nat) (n : Fin 12) (m : Fin 64) (i c sl : Nat), fn ≠ 0 →
      ∀ r ∈ [Reg.plyctl n, .planctl, .slotplan c sl, .standcfg, .port m, .route i, .pfPage p o], regSeen fn r s = false)

/-- R109, R110, R314-R323, R331, R332: signals add with saturation and are written whole, and no WAITING task that they make ready stays
WAITING; doorbells are taken or set ERR; descriptors and records are read, entered or refused; a task that completes leaves the queue,
adds to its signal and to its launch's count; a launch that completes is gone and interrupts; a TENQ enters its task and its serial
comes back. -/
def Obligations.TaskEvents : Prop :=
  ∀ (s : State) (p : Fin 24),
    let sig (t : State) (j : Nat) : BitVec 32 := lookupD (t.part p).sig j 0
    let judged (t : State) : Prop := ∀ x ∈ (t.part p).tasks, readyNow (t.part p) s.time x = false
    (∀ (i : Fin 256) (n : BitVec 32) (ply : Option (Fin 12)), legStands ply p s = false → Yields (.signalAdd p i n ply) s fun t =>
      (sig t i.val).toNat = Nat.min 0xFFFFFFFF ((sig s i.val).toNat + n.toNat) ∧ (∀ j, j ≠ i.val → sig t j = sig s j) ∧ judged t) ∧
    (∀ (i : Fin 256) (n : BitVec 32), Yields (.signalWrite p i n) s fun t =>
      sig t i.val = n ∧ (∀ j, j ≠ i.val → sig t j = sig s j) ∧ judged t) ∧
    (∀ (n : Nat) (x : Task), s.task? p n = some x → readyNow (s.part p) s.time x = true → Yields (.notBeforeReached p n) s fun t =>
      ∃ y, t.task? p n = some y ∧ y.st = .ready ∧ y.readyAt = s.time) ∧
    (∀ (g : Word) (whole : Bool), Yields (.launchDoorbell p g whole) s fun t =>
      if whole = true ∧ g.toNat % 64 = 0 ∧ (s.part p).launches.length + (s.part p).doorbells.length < 64 then
        ∃ m, (t.part p).doorbells = (s.part p).doorbells ++ [(g, m)] ∧ (t.part p).lnchErr = (s.part p).lnchErr
      else (t.part p).doorbells = (s.part p).doorbells ∧ (t.part p).lnchErr = true) ∧
    (∀ (g : Word) (w : List Nat), nextDoorbell p s = some g → rootWords p g 8 s = .ok w →
      (descriptorOk w = true → (∀ a ∈ [w.getD 1 0, w.getD 2 0, w.getD 3 0], ∃ pa, rootAt p false (BitVec.ofNat 64 a) s = .ok pa) →
        Yields (.launchDescriptor p) s fun t => (t.part p).doorbells = (s.part p).doorbells.drop 1 ∧
          ∃ l, (t.part p).launches = (s.part p).launches ++ [l] ∧ l.ntask = w.getD 0 0 % 2 ^ 16 ∧ l.tasks = BitVec.ofNat 64 (w.getD 1 0) ∧
            l.donecnt = BitVec.ofNat 64 (w.getD 2 0) ∧ l.abortcnt = BitVec.ofNat 64 (w.getD 3 0) ∧ l.next = 0 ∧ l.left = 0) ∧
      (descriptorOk w = false → Yields (.launchDescriptor p) s fun t => (t.part p).doorbells = (s.part p).doorbells.drop 1 ∧
        (t.part p).launches = (s.part p).launches ∧ Recorded s t p 0x42)) ∧
    (∀ (l : Launch) (ws : List Nat) (pa : Nat), nextRecord p s = some l →
      let g := l.tasks + BitVec.ofNat 64 (64 * l.next)
      rootWords p g 8 s = .ok ws → recordOk p (s.part p) ws = true → rootAt p false (recordImage ws) s.drawn = .ok pa →
        Yields (.taskRecordEntry p) s fun t => (t.part p).serial = (s.part p).serial + 1 ∧
          ∃ x ∈ (t.part p).tasks, x.serial = (s.part p).serial ∧ x.gva = g ∧ x.launch = some l.id ∧ x.image = recordImage ws ∧
            x.prio = ws.getD 1 0 / 2 ^ 28 % 8 ∧ x.gang = ws.getD 1 0 / 2 ^ 16 % 128 ∧ (x.deps = [] → x.nbt = none → x.st = .ready)) ∧
    (∀ (n : Nat) (x : Task), s.task? p n = some x → x.st = .running → x.gangs = [] → Yields (.taskComplete p n) s fun t =>
      (∀ y ∈ (t.part p).tasks, y.serial ≠ n) ∧
      (∀ i, x.dsig = some i → (sig t i.val).toNat = Nat.min 0xFFFFFFFF ((sig s i.val).toNat + 1)) ∧
      (∀ j, x.launch = some j → ∀ l ∈ (t.part p).launches, l.id = j → ∃ m ∈ (s.part p).launches, m.id = j ∧ l.left = m.left - 1 ∧
        l.aborted = m.aborted + b2n x.aborted)) ∧
    (∀ (n : Nat) (l : Launch), (s.part p).launches.find? (fun x => x.id == n) = some l → l.next = l.ntask → l.left = 0 →
      rootAt p true l.abortcnt s ≠ .wait → rootAt p true l.donecnt s ≠ .wait → s.sound → Yields (.launchComplete p n) s fun t =>
        (∀ x ∈ (t.part p).launches, x.id ≠ n) ∧
        (∀ a, t.rd a = (rootAdd p l.donecnt 1 (rootAdd p l.abortcnt l.aborted s).1).1.rd a) ∧
        (∀ v, l.irq = some v → l.quiet = false → t.out = s.out ++ [.msix (p.val + 1) v]) ∧ (l.irq = none → t.out = s.out)) ∧
    (∀ (g : Word) (n pa : Nat), rootAt p true g s = .ok pa → s.lineBad pa = false →
      ofBytes ((rootAdd p g n s).1.rdN pa 8) = (ofBytes (s.rdN pa 8) + n) % 2 ^ 64 ∧
      ∀ a, (∀ i < 8, a ≠ pa + i) → (rootAdd p g n s).1.rd a = s.rd a) ∧
    (∀ (q : Tenq) (a : Nat), s.tenqs.find? (fun x => x.id == q.id) = some q → q.result = none → q.arrived = some a → q.part = p →
      (∀ (ws : List Nat) (pa : Nat), (s.part p).tasksHeld < (s.part p).capacity → rootWords p q.gva 8 s = .ok ws →
        recordOk p (s.part p) ws = true → rootAt p false (recordImage ws) s.drawn = .ok pa → Yields (.tenqRequest q.id) s fun t =>
          (∃ x ∈ (t.part p).tasks, x.serial = (s.part p).serial ∧ x.gva = q.gva ∧ x.from_ = some q.key) ∧
          (∃ y ∈ t.tenqs, y.id = q.id ∧ y.result = some (BitVec.ofNat 64 ((s.part p).serial % 2 ^ 32))) ∧ Ahead s t (.tenqResult q.id)) ∧
      ((s.part p).capacity ≤ (s.part p).tasksHeld → Yields (.tenqRequest q.id) s fun t =>
        t.tenqs = s.tenqs ∧ (s.time + 1, Instr.tenqRequest q.id) ∈ t.cal) ∧
      ((s.part p).capacity ≤ (s.part p).tasksHeld → a + 4096 ≤ s.time → Yields (.tenqTimeout q.id) s fun t =>
        (∃ y ∈ t.tenqs, y.id = q.id ∧ y.result = some (BitVec.ofNat 64 (2 ^ 63 + 2 ^ 56))) ∧ Ahead s t (.tenqResult q.id))) ∧
    (∀ (q : Tenq) (v : Word) (f : Flight) (d : Fin 64) (x : Word), s.tenqs.find? (fun y => y.id == q.id) = some q → q.result = some v →
      q.key = s.key → s.legSlots 12 q.part.val ≠ [] → f ∈ s.core.act.flights → f.need = some q.id → f.writes = [.s d x] →
      Yields (.tenqResult q.id) s fun t => (∀ y ∈ t.tenqs, y.id ≠ q.id) ∧
        ∃ h ∈ t.core.act.flights, h.due = f.due ∧ h.need = none ∧ h.writes = [.s d v])

/-- R77, R78, R80-R84, R86, R88, R96, R98, R102, R103, R324, R326, R327: a decision orders the first eligible task that fits onto its cores,
to start 2,048 ticks later; a gang starts with its contexts RUNNING; a restored gang starts 8 ticks later, with CSTAT.RESTORED; the task
that ranks first long enough becomes reserving; a grace that ends parks what still runs; a save takes the lowest free frames, drains, and
leaves the slots EMPTY; an END that has drained leaves its context DONE; CTXCTL takes its commands in the states that allow them. That a
slot's ERR and BUSY stand by slot (entries 47, 77), that several tasks may be reserving at once (entry 51), that a restore waits for P0
(entry 80), and what a frame keeps besides the words of R87 (entries 14, 46) are the model's choices. -/
def Obligations.PlacementEvents : Prop :=
  ∀ (s : State),
    (∀ (p : Fin 24) (used : Nat) (t : Task) (ts : List Task) (img : Image) (room : Room), s.time % 8 = 0 → s.isReady = true →
      nextServed s 25 (s.round / 32 % 24) (s.round % 32) = some (p, used) → eligible (s.part p) s.time = t :: ts →
      t.st = .ready → t.kept = some img → placeFor s p t = some ([room], false) → Yields .placementDecision s fun u =>
        (∃ g ∈ u.gangs, g.part = p ∧ g.task = t.serial ∧ g.cl = room.1 ∧ g.start = some (s.time + 2048) ∧
          g.members.map (fun m => (m.role, m.sl)) = room.2.2 ∧ (s.time + 2048, Instr.gangStart g.id) ∈ u.cal) ∧
        ∀ x ∈ (u.part p).tasks, x.serial = t.serial → x.st = .placing) ∧
    (∀ (p : Fin 24) (t : Task) (ts : List Task), ranked (s.part p) s.time = t :: ts → t.serial = (s.part p).topTask →
      (s.part p).topSince + 2 ^ (s.part p).resv ≤ s.time → (s.part p).reserving.contains t.serial = false → (s.part p).pen = false →
      Yields (.reservation p) s fun u => (u.part p).reserving = (s.part p).reserving ++ [t.serial]) ∧
    (∀ (g : Gang) (m : Member) (t : Task) (img : Image), s.gang? g.id = some g → s.task? g.part g.task = some t → g.members = [m] →
      memberKey g m = s.key → g.standby = false →
      (g.start = some s.time → m.done = false → m.extra = none → t.kept = some img → Yields (.gangStart g.id) s fun u =>
        u.core.act.st = .running ∧ u.core.act.pos = s.core.act.pos ∧ u.core.act.regs = s.core.act.regs ∧ u.core.spm = [] ∧
        u.core.regions[(63 : Fin 64)] = img.text ∧ (s.clocked s.key = true → s.key ∈ u.turn) ∧
        ∀ x ∈ (u.part g.part).tasks, x.serial = t.serial → x.st = .running) ∧
      (g.restoring = true → s.plies[plyOf g.cl].st ≠ .p0 → Yields (.restoreComplete g.id) s fun u =>
        u.core = s.core ∧ (s.time + 1, Instr.restoreComplete g.id) ∈ u.cal) ∧
      (g.restoring = true → s.plies[plyOf g.cl].st = .p0 → gangFramesWait s g = true → Yields (.restoreComplete g.id) s fun u =>
        u.core = s.core ∧ (s.time + 256, Instr.restoreComplete g.id) ∈ u.cal) ∧
      (∀ f x, g.restoring = true → s.plies[plyOf g.cl].st = .p0 → gangFramesWait s g = false → gangFramesOk s g = true →
        t.gangs = [g.id] → m.frame = some f →
        m.extra = some x → Yields (.restoreComplete g.id) s fun u => u.core.act.st = .standby ∧ u.core.act.sys.cstat.getLsbD 7 = true ∧
          (s.lpddr = [] → ∀ d, frameOk g.part f s = some d → u.core.act.sys.cstat.getLsbD 6 = d ∧
            (∀ h, frameWords g.part f 0 8 s = some h → u.core.act.pos = h.getD 1 0) ∧
            (∀ v, frameWords g.part f 0x200 64 s = some v → ∀ i : Fin 64, u.core.act.regs.s[i] = BitVec.ofNat 64 (v.getD i.val 0))) ∧
          (s.time + 8, Instr.gangStart g.id) ∈ u.cal ∧ (g.freed = false → ¬ (f ∈ (u.part g.part).frames)) ∧
          ∃ h, u.gang? g.id = some h ∧ h.restoring = false ∧ h.start = some (s.time + 8))) ∧
    (∀ (g : Gang) (m : Member), s.gang? g.id = some g → g.members = [m] → memberKey g m = s.key → s.core.act.gid = g.id →
      (∀ n, g.grace = some n → n ≤ s.time → g.saving = false → s.core.act.st = .running → s.core.act.phase ≠ .boundary →
        Yields (.graceExpiry g.id) s fun u => u.core.act.st = .parked ∧ u.core.act.pos = s.core.act.pos ∧
          u.core.act.regs = s.core.act.regs ∧ u.core.act.bun = s.core.act.bun) ∧
      (∀ i rest, saveDue s g = true → (∀ t, s.task? g.part g.task = some t → t.gangs = [g.id]) → s.core.act.st ≠ .done →
        freeSlotsOf (s.part g.part) = i :: rest → Yields (.gangSave g.id) s fun u =>
        u.core.act.st = (if s.core.act.st = .running then .preempted else s.core.act.st) ∧
        ∃ h, u.gang? g.id = some h ∧ h.saving = true ∧ h.flushed = false ∧
          h.members = [{ m with frame := some ((s.part g.part).frbase + BitVec.ofNat 64 (0x80000 * i)) }]) ∧
      (∀ f, g.saving = true → m.frame = some f →
        (g.flushed = false → memberDrained s s.key = true → arrivalsOut s g.id = false → Yields (.saveComplete g.id) s fun u =>
          ∃ h, u.gang? g.id = some h ∧ h.flushed = true) ∧
        (g.flushed = true → memberDrained s s.key = true → flushing s.core = false → writable g.part f 0x7E200 s = true →
          Yields (.saveComplete g.id) s fun u => u.core.act.st = .empty ∧ u.core.spm = [] ∧
            ∃ h n x, u.gang? g.id = some h ∧ h.saving = false ∧ h.members = [n] ∧ n.frame = some f ∧ n.extra = some x ∧
              x.flights = s.core.act.flights ∧ x.bun = s.core.act.bun))) ∧
    (s.core.act.st = .running →
      (s.core.act.phase = .drain → endDrained s s.key = true → s.core.dirtyGrans 64 = [] → Yields (.endDrainComplete s.key) s fun u =>
        u.core.act.st = .done) ∧
      (s.core.act.phase = .drained → flushing s.core = false → s.core.dirtyGrans 64 = [] → s.core.toks = [] → s.core.act.replay = [] →
        Yields (.endDrainComplete s.key) s fun u => u.core.act.st = .done)) ∧
    (s.core.act.st = .frozen →
      (s.core.act.replay = [] → Yields (.ctxctlResume s.key false) s fun u =>
        u.core.act = { s.core.act with st := .running } ∧ u.core.regsx = s.core.regsx) ∧
      (Yields (.ctxctlPark s.key false) s fun u => u.core.act = { s.core.act with st := .parked } ∧
        u.core.regsx = { s.core.regsx with ctxBusy := s.core.regsx.ctxBusy.set 0 true })) ∧
    (s.core.act.st ≠ .frozen → ∀ i ∈ [Instr.ctxctlResume s.key false, .ctxctlPark s.key false], Yields i s fun u =>
      u.core.act = s.core.act ∧ u.core.regsx.ctxErr[0] = true) ∧
    (s.core.act.st = .empty → ∀ i ∈ [Instr.ctxctlPreempt s.key false, .ctxctlKill s.key false], Yields i s fun u =>
      u.core.act = s.core.act ∧ u.core.regsx.ctxErr[0] = true) ∧
    (∀ (g : Gang) (m : Member) (t : Task), s.core.act.st ≠ .empty → s.gang? g.id = some g → g.members = [m] → memberKey g m = s.key →
      s.core.act.gid = g.id → g.part = s.core.act.part → s.task? s.core.act.part s.core.act.task = some t → t.st = .running → t.gangs = [g.id] →
      (g.grace = none → Yields (.ctxctlPreempt s.key false) s fun u =>
        let n := s.time + (s.part g.part).gracecfg.toNat % 2 ^ 31
        (s.core.act.st = .running → u.core.act.st = .running ∧ u.core.act.sys.cstat.getLsbD 1 = true) ∧
        (s.core.act.st = .frozen → u.core.act.st = .parked) ∧
        (∃ h, u.gang? g.id = some h ∧ h.grace = some n) ∧ (s.time < n → (n, Instr.graceExpiry g.id) ∈ u.cal)) ∧
      (Yields (.ctxctlKill s.key false) s fun u => u.core.act.st = .done ∧ u.core.spm = [] ∧ u.core.act.flights = [] ∧
        ∃ x, u.task? s.core.act.part s.core.act.task = some x ∧ x.aborted = true))

/-- R244-R268, R270, R271, R361, R428, R431, R439, R441-R444: a fill waits for tokens of the mesh and slots of the plan, and installs the
bytes of its granule as its page was translated at the touch; bytes of a line with an uncorrectable error are marked (R28, R242); a fill
that loses a beat installs nothing (R27). A walk caches its leaf, leaves its fault for the access that waits, or is tried again after 256
ticks. The MAPINVC commands end within 256 ticks of their start, when no cache of the partition holds a leaf that they remove. A write of a
ring's base or size empties it; FQTAIL interrupts while records stand; the sweeper takes over each difference. A sample record that fits is
written, word for word, where its words translate, and counts as lost where one does not. The model's own choices: the tokens that a fill
and a walk take (entry 92, DEDUCED), the marks of a fill's bytes (entry 43, DEDUCED), the fill that loses a beat (entry 86), LOG kept when
out of range (entry 34, DEDUCED), and 256 ticks between tries of a waiting sample record (entry 89, DEDUCED). -/
def Obligations.MapAndRecordEvents : Prop :=
  ∀ (s : State), s.sound →
    (∀ (g : Fin 768) (since pa i : Nat) (r : Region), s.core.granSt g = .filling since pa → s.core.regionAt (4096 * g.val) = some (i, r) →
      let va := vaOf (r.gva + BitVec.ofNat 64 (4096 * g.val - r.spa))
      let goes := s.meshOpen s.key s.core.act.part 4096 = true ∧ fillOpen va pa s = true
      (¬ goes → Yields (.granuleFillComplete s.key g) s fun t =>
        t.core = s.core ∧ (s.time + 1, Instr.granuleFillComplete s.key g) ∈ t.cal) ∧
      (goes → fillLost va s = true → Yields (.granuleFillComplete s.key g) s fun t =>
        t.core.granSt g = .faulted 0x13 0 ∧ t.core.spm = s.core.spm ∧ t.core.spBad = s.core.spBad) ∧
      (goes → fillLost va s = false → Yields (.granuleFillComplete s.key g) s fun t =>
        t.core.granSt g = .clean ∧ (∀ a, t.rd a = s.rd a) ∧
          (∀ j < 4096, s.lineBad (pa + 128 * (j / 128)) = true → s.core.physOff (4096 * g.val + j) ∈ t.core.spBad) ∧
          (s.older = [] → (∀ j < 4096, s.core.regionAt (4096 * g.val + j) = some (i, r)) → ∀ j < 4096,
            t.core.spm.read (s.core.physOff (4096 * g.val + j)) = s.rd (pa + j)))) ∧
    (∀ (page : Nat) (i : Instr), i ∈ [Instr.tableWalk s.key page, .walkRetry s.key page] → (page, WalkSt.pending) ∈ s.core.walks →
      s.core.heldGrans page = [] →
      let goes := s.meshOpen s.key s.core.act.part walkBytes = true ∧ s.planned [(plyOf s.key.cl.val).val, 12] s.core.act.part.val = true
      (¬ goes → Yields i s fun t => t.core = s.core ∧ (s.time + 1, Instr.tableWalk s.key page) ∈ t.cal) ∧
      (∀ l, goes → s.walk s.core.act.part (page * 65536) = .leaf l → Yields i s fun t =>
        l ∈ t.core.tlb ∧ ∀ w ∈ t.core.walks, w.1 ≠ page) ∧
      (∀ r l, goes → s.walk s.core.act.part (page * 65536) = .fault r l → Yields i s fun t =>
        (page, WalkSt.ready) ∈ t.core.walks ∧ t.core.tlb = s.core.tlb) ∧
      (goes → s.walk s.core.act.part (page * 65536) = .migrating → Yields i s fun t =>
        (s.time + 256, Instr.walkRetry s.key page) ∈ t.cal ∧ t.core = { s.core with meshTok := t.core.meshTok })) ∧
    (∀ (p : Fin 24) (i : Instr) (c : Nat), (i, c) ∈ [(Instr.mapinvcInvalidatePage p, 1), (.mapinvcInvalidateAll p, 2), (.mapinvcDrainFlush p, 3)] →
      (s.part p).mapBusy = true → (s.part p).mapCmd = c → Yields i s fun t => (t.part p).mapBusy = true ∧
        (∃ d, s.time < d ∧ d ≤ s.time + 256 ∧ (d, Instr.mapinvcDone p) ∈ t.cal) ∧
        (c = 3 → s.tablePage p (vaOf (s.part p).mapAt) ∈ (t.part p).mapPages)) ∧
    (∀ p : Fin 24, (s.part p).mapBusy = true → ((s.part p).mapCmd = 3 → s.pageBusy p = false) → Yields (.mapinvcDone p) s fun t =>
      (t.part p).mapBusy = false ∧ (∀ a, t.rd a = s.rd a) ∧
      ∀ k, ∀ l ∈ (t.coreAt k).tlb, l.part = p → (s.part p).removes l = false) ∧
    (∀ (p : Fin 24) (x : Word),
      (∀ size, Yields (.faultQueueSet p size x) s fun t => (t.part p).fqhead = 0 ∧ (t.part p).fqtail = 0 ∧
        (t.part p).fqbase = (if size then (s.part p).fqbase else x &&& ~~~0xFFF#64) ∧
        (t.part p).fqlog = (if size ∧ 6 ≤ x.toNat % 32 ∧ x.toNat % 32 ≤ 16 then x.toNat % 32 else (s.part p).fqlog) ∧
        (t.part p).fqwait = (s.part p).fqwait) ∧
      (∀ size, Yields (.sampleRingSet p size x) s fun t => (t.part p).smphead = 0 ∧ (t.part p).smptail = 0 ∧
        (t.part p).smpbase = (if size then (s.part p).smpbase else x &&& ~~~0xFFF#64) ∧
        (t.part p).smplog = (if size ∧ 9 ≤ x.toNat % 32 ∧ x.toNat % 32 ≤ 24 then x.toNat % 32 else (s.part p).smplog)) ∧
      (Yields (.fqtailWrite p x) s fun t => (t.part p).fqtail = x.toNat ∧ (t.part p).fqhead = (s.part p).fqhead ∧
        t.out = s.out ++ (if x.toNat < (s.part p).fqhead ∧ (s.part p).irqcfg.getLsbD 7 = true
          then [.msix (p.val + 1) ((s.part p).irqcfg.toNat % 64)] else []))) ∧
    (s.clusterPart s.key.cl.val = none → Yields (.sweeperVisit s.key) s fun t => t.core = s.core) ∧
    (∀ p : Fin 24, s.clusterPart s.key.cl.val = some p →
      (Yields (.sweeperVisit s.key) s fun t => t.core.ev = s.core.ev ∧ t.core.act = s.core.act ∧ t.core.spm = s.core.spm ∧
        ((s.part p).cntbase = 0 → ∀ n : Fin 25, t.core.evSeen[n] = s.core.ev[n])) ∧
      ∀ (n : Fin 25) (pa : Nat), (s.part p).cntbase ≠ 0 →
        rootAt p true ((s.part p).cntbase + BitVec.ofNat 64 (512 * (100 * s.key.cl.val + s.key.sl.val) + 8 * n.val)) s = .ok pa →
        s.lineBad pa = false →
        let t := sweepOne s.key p n s
        ofBytes (t.rdN pa 8) = (ofBytes (s.rdN pa 8) + (s.core.ev[n] - s.core.evSeen[n]).toNat) % 2 ^ 64 ∧ t.core.evSeen[n] = s.core.ev[n]) ∧
    (sampleDue s s.key = true → (s.part s.core.act.part).smpwait = [] →
      let p := s.part s.core.act.part
      let pad := p.ringPad 4
      let slots := (if pad = 0 then [] else [0]) ++ (List.range 4).map fun i => pad + i
      let pa (i : Nat) : Option Nat := s.gvaPaW s.core.act.part (p.ringGva i)
      let stored := (slots.filterMap pa).flatMap fun a => (List.range 8).map fun j => a + j
      let lost (t : State) : Prop := (t.part s.core.act.part).smphead = p.smphead ∧ (t.part s.core.act.part).smplost = p.smplost + 1
      (2 ^ p.smplog - (p.smphead - p.smptail) < pad + 4 → Yields (.sampleRecord s.key) s lost) ∧
      (pad + 4 ≤ 2 ^ p.smplog - (p.smphead - p.smptail) →
        ((∃ i ∈ slots, s.gvaWaits s.core.act.part (p.ringGva i) = true) → Yields (.sampleRecord s.key) s fun t =>
          (t.part s.core.act.part).smphead = p.smphead ∧ (t.part s.core.act.part).smplost = p.smplost ∧
            (t.part s.core.act.part).smpretry = s.time + 256 ∧ (t.part s.core.act.part).smpwait = [(1, s.sampleWords.drop 1)]) ∧
        ((∀ i ∈ slots, s.gvaWaits s.core.act.part (p.ringGva i) = false ∧ s.firm s.core.act.part (vaOf (p.ringGva i)) stored) →
          ((∃ i ∈ slots, pa i = none) → Yields (.sampleRecord s.key) s lost) ∧
          ((∀ i ∈ slots, pa i ≠ none) → Yields (.sampleRecord s.key) s fun t =>
            (t.part s.core.act.part).smphead = p.smphead + pad + 4 ∧ (t.part s.core.act.part).smplost = 0 ∧
              (stored.Nodup → ∀ (i : Nat) (x : Nat), s.sampleWords[i]? = some x → ∀ a, pa (pad + i) = some a →
                t.rdN a 8 = toBytes 8 x)))))

/-- R286-R298, R300-R303, R448: a command that is due joins its queue; under HOLD none does, and those that have joined go on. Its
descriptor and records are judged, and an empty box is complete with that (R284). In a tick the engine reads, and writes, at most 256 bytes;
a unit reads and sends its write, and the copy goes on to the next; an acknowledgement credits the handle and completes the copy; RESUME and
ABORT act on the stopped copy of the queue and set ERR where there is none; a stream unit moves one window and credits its gate. The model's
own choices: completion, and reason 6 for an index entry with an uncorrectable error (entry 40, DEDUCED); what layoutValid judges (entry 67,
DEDUCED); the units that a tick serves, of 16 bytes at most each (entry 94, DESIGN CHOICE). -/
def Obligations.TransferEvents : Prop :=
  ∀ (s : State),
    (holdsRelease s = false → Yields (.copyRelease s.key) s fun t =>
      ∀ x ∈ t.core.copies, x.st = 0 → s.time < Nat.max x.rel (x.u + 1)) ∧
    (holdsRelease s = true → (s.core.copies.map fun x => x.id).Nodup → Yields (.copyRelease s.key) s fun t =>
      ∀ x ∈ s.core.copies, x.st = 0 → x ∈ t.core.copies) ∧
    (∀ c : Copy, s.core.copies = [c] → c.st = 1 → releaseTouch s c = (s, .ok) → s.core.badAt c.desc 64 = false →
      let d := s.core.words c.desc 8
      let sl := d.getD 0 0 % 2 ^ 22
      let dl := d.getD 0 0 / 2 ^ 32 % 2 ^ 22
      let src := s.core.words sl 16
      let dst := s.core.words dl 16
      let b := boxOf d src dst
      sl % 128 = 0 → sl + 128 ≤ 0x300000 → dl % 128 = 0 → dl + 128 ≤ 0x300000 → s.core.badAt sl 128 = false → s.core.badAt dl 128 = false →
      (layoutValid s src = true → layoutValid s dst = true → boxValid c.kind d b = true →
        let clip := if b.hmode then 0 else s.core.clipCredit c.kind b (s.core.badRows c.kind b)
        let judged (x : Copy) : Prop := x.id = c.id ∧ x.st = 2 ∧ x.box = some b ∧ x.next = 0 ∧
          x.handle.val = d.getD 2 0 / 2 ^ 16 % 2 ^ 8
        (b.total = 0 → Yields (.copyRelease s.key) s fun t => t.core.copies = [] ∧ t.core.handles = s.core.handles) ∧
        (0 < b.total → clip = 0 → Yields (.copyRelease s.key) s fun t =>
          ∃ x, t.core.copies = [x] ∧ judged x ∧ x.remain = b.total) ∧
        (0 < b.total → 0 < clip → s.time ≤ s.core.creditAt[c.q] ∨ creditAhead s c.q = true →
          Yields (.copyRelease s.key) s fun t => t.core.handles = s.core.handles ∧
          ∃ x, t.core.copies = [x] ∧ judged x ∧ x.remain = b.total ∧ x.clip = clip) ∧
        (0 < clip → clip < b.total → s.core.creditAt[c.q] < s.time → creditAhead s c.q = false → Yields (.copyRelease s.key) s fun t =>
          (∃ x, t.core.copies = [x] ∧ judged x ∧ x.remain = b.total - clip) ∧ ∀ h : Fin 256, h.val = d.getD 2 0 / 2 ^ 16 % 2 ^ 8 →
            t.core.handles = s.core.handles.set h ((s.core.handles[h]).credit clip true).1)) ∧
      (layoutValid s src = false ∨ layoutValid s dst = false ∨ boxValid c.kind d b = false → Yields (.copyRelease s.key) s fun t =>
        (∃ x, t.core.copies = [x] ∧ x.st = 3 ∧ x.reason = 7) ∧ Recorded s t s.core.act.part 0x44)) ∧
    (∀ q : Fin 4, Yields (.copyReadReturn s.key q) s fun t =>
      ∃ new, t.reqs = s.reqs ++ new ∧ (new.map fun r => r.size).sum ≤ 256 ∧ t.engineWrites ≤ Nat.max 512 s.engineWrites) ∧
    (∀ (q : Fin 4) (c : Copy) (b : Box), copyHead s q = some c → c.box = some b → s.core.copies.filter (fun x => x.id == c.id) = [c] →
      let w := b.work c.kind (s.core.indexEntry c.kind b c.next) c.next
      let d := s.drawn.modCore fun k => { k with lastQ := q }
      let first := copyStep q s.drawn
      let stopped (rs : Nat) (t : State) : Prop := ∃ x ∈ t.core.copies, x.id = c.id ∧ x.st = 3 ∧ x.reason = rs ∧ x.next = c.next
      w.bytes ≤ 16 →
        (Yields (.copyReadReturn s.key q) s fun t => (∃ new, t.reqs = first.reqs ++ new) ∧ ∀ e ∈ first.cal, e ∈ t.cal) ∧
        (∀ (v pa : Nat) (u u' : State), s.core.indexBad c.kind b c.next = false → w.clipped = false → w.moves = true →
          placeRead c.id w.src w.bytes d = (u, .val v) → placeDest w.dst w.bytes u = (u', .own pa) →
          (c.kind = .reduce → c.unacked = 0) → u'.engineWrites < 512 →
          (∃ r, first.reqs = u'.reqs ++ [r] ∧ r.pa = pa ∧ r.size = w.bytes ∧ r.data = w.value b v ∧ r.cls = c.ac ∧ r.key = s.key ∧
            r.kind = (if c.kind = .reduce then .copyReduce c.id b.op b.rtype
                      else .copyWrite c.id (if b.hmode then 0 else w.bytes) w.mask none) ∧ Ahead s first (.homeSliceApply r.id)) ∧
          (c.held = [] → (if b.hmode then w.bytes < c.remain else 0 < c.remain) →
            ∃ x ∈ first.core.copies, x.id = c.id ∧ x.next = c.next + 1 ∧ x.unacked = c.unacked + 1)) ∧
        (s.core.indexBad c.kind b c.next = true → Yields (.copyReadReturn s.key q) s fun t =>
          stopped 6 t ∧ Recorded s t s.core.act.part 0x44) ∧
        (∀ (rs : Nat) (u : State), s.core.indexBad c.kind b c.next = false → w.clipped = false → w.moves = true →
          placeRead c.id w.src w.bytes d = (u, .bad rs) →
          Yields (.copyReadReturn s.key q) s fun t => stopped rs t ∧ Recorded u t s.core.act.part 0x44)) ∧
    (∀ (r : Req) (c : Copy) (b : Box) (n : Nat) (mask : List Byte), s.req? r.id = some r → r.kind = .copyWrite c.id n mask none → r.applied = true →
      r.bad = 0 → s.core.copies = [c] → c.box = some b → c.hmode = false → c.st = 2 → c.held = [] → c.unacked = 1 → 0 < n → n ≤ c.remain →
      Yields (.copyWriteAck s.key r.id) s fun t => t.req? r.id = none ∧
        t.core.handles = s.core.handles.set c.handle ((s.core.handles[c.handle]).credit n true).1 ∧
        (n = c.remain → c.clip = 0 → c.again = false → t.core.copies = []) ∧
        (n < c.remain → ∃ x, t.core.copies = [x] ∧ x.id = c.id ∧ x.remain = c.remain - n ∧ x.unacked = 0)) ∧
    (∀ q : Fin 4,
      (s.core.stoppedCopy q = none → ∀ i ∈ [Instr.cpyctlResume s.key q, .cpyctlAbort s.key q], Yields i s fun t =>
        t.core.regsx.cpyErr = true ∧ t.core.copies = s.core.copies) ∧
      (∀ c, s.core.stoppedCopy q = some c →
        (Yields (.cpyctlResume s.key q) s fun t =>
          ∃ x ∈ t.core.copies, x.id = c.id ∧ x.st = (if c.box = none then 1 else 2) ∧ x.next = c.next) ∧
        (Yields (.cpyctlAbort s.key q) s fun t =>
          (∀ x ∈ t.core.copies, x.id = c.id → x.st = 4) ∧ (t.core.handles[c.handle]).err = true))) ∧
    (∀ (f : Fin 8) (fd : Feed), s.core.feeds[f] = some fd →
      (streamReadReady s.core f = true → touchAll (fd.pat.runs fd.fetchWin) s = (s, .ok) → Yields (.streamWindowRead s.key f) s fun t =>
        t.core.spm = s.core.spm ∧ ∃ x, t.core.feeds[f] = some x ∧ x.pat = fd.pat ∧ x.win = fd.win ∧ x.pass = fd.pass ∧
          x.buf = fd.buf ++ [(s.core.windowValue s.seed fd.pat fd.fetchWin, s.core.windowBad fd.pat fd.fetchWin)] ∧
          (x.fetchWin, x.fetchPass) = (if fd.fetchWin + 1 < fd.pat.windows then (fd.fetchWin + 1, fd.fetchPass) else (0, fd.fetchPass + 1))) ∧
      (∀ pass wi x, fd.pat.out = true → streamHeld s.core f = false → s.core.frontWindow f fd = some (pass, wi, x) →
        touchAll (fd.pat.runs wi) s = (s, .ok) → Yields (.streamWindowWrite s.key f) s fun t =>
          t.core.spm = ((windowCells fd.pat wi x).foldl (fun c e => c.spWrite e.1 e.2) s.core).spm ∧
          t.core.feeds[f] = some { fd with res := fd.res.drop 1 } ∧
          (fd.pat.gen = false → t.core.handles = s.core.handles) ∧
          (fd.pat.gen = true → 0 < fd.pat.bytes wi → t.core.handles = s.core.handles.set fd.pat.gate
            ((s.core.handles[fd.pat.gate]).credit (fd.pat.bytes wi) true).1)))

/-- R339-R342, R345-R348, R354: PAUSE ends when its ticks have passed; an arrival sets its bit and completes the phase once the arrivals are
at least as many as the members that are not DONE, unless an XPH among them waits for the rails; a beat leaves its send buffer, enters its
first stage two ticks later, and is lost with the beat that it meets there; the waiting XSEL of a RUNNING context takes the beat at its
strip, or zero. The model's own choices: an arrival of a member that has since become DONE still counts (entry 71, DEDUCED), so that a phase
completes at COUNT at or above the members not DONE (entry 29, DEDUCED). -/
def Obligations.PauseBarrierRails : Prop :=
  ∀ (s : State),
    (∀ n, s.core.act.stage = some (.pauseUntil n) → n ≤ s.time → Yields (.pauseExpiry s.key) s fun t =>
      t.core.act = { s.core.act with stage := some .over }) ∧
    (∀ (g : Gang) (b : Fin 16) (role : Fin 96) (xph : Bool), s.gang? g.id = some g →
      let arr := g.bars[b].arr ||| (1#96 <<< role.val)
      let full : Bool := decide (s.notDone g ≤ ((List.range 96).filter fun r => arr.getLsbD r).length)
      let held : Bool := g.bars[b].xph || xph
      Yields (.barrierArrival g.id b role xph) s fun t =>
        (∃ h, t.gang? g.id = some h ∧ (∀ c : Fin 16, c ≠ b → h.bars[c] = g.bars[c]) ∧
          h.bars[b] = if full && !held then ⟨!g.bars[b].ph, 0, false⟩ else ⟨g.bars[b].ph, arr, held⟩) ∧
        (full = true → held = true → t.railWait = s.railWait ++ [(g.id * 16 + b.val, s.time)]) ∧
        (full = true → held = false → ∀ m ∈ g.members, memberKey g m = s.key → s.core.act.gid = g.id →
          t.core.act.arrived.getLsbD b.val = false)) ∧
    (∀ b : RailBeat, s.rails.filter (fun x => x.id == b.id) = [b] →
      (b.from_ = s.key → Yields (.railInjection b.id false) s fun t => t.rails = s.rails ∧
        t.core.sendBuf = (s.core.sendBuf.filter fun x => x != b.id) ∧ (s.time + 2, Instr.railInjection b.id true) ∈ t.cal) ∧
      (s.time ≤ b.tick + 14 → (∀ x ∈ s.rails, x.id ≠ b.id → x.cl = b.cl → x.west = b.west → x.on b.strip s.time = false) →
        Yields (.railInjection b.id true) s fun t => t.core = s.core ∧ { b with entered := true } ∈ t.rails) ∧
      (∀ c ∈ s.rails, s.time = b.tick + 2 → b.strip ≤ 11 → b.dead = none → c.id ≠ b.id → c.strip ≤ 11 → c.cl = b.cl → c.west = b.west →
        c.on b.strip s.time = true → Yields (.railInjection b.id true) s fun t =>
          (∃ x ∈ t.rails, x.id = b.id) ∧ (∀ x ∈ t.rails, x.id = b.id ∨ x.id = c.id → x.dead = some (s.time, b.strip)) ∧
          (b.from_ = s.key → b.gid = s.core.act.gid → s.core.act.st ≠ .done → s.core.act.st ≠ .empty → s.core.act.inXsel = none →
            ∃ n, t.core.act.railTrap = s.core.act.railTrap ++ [railInfo 0 b.strip b.west n]))) ∧
    (∀ r, s.core.act.st = .running → s.core.act.stage = some (.selecting s.time) → s.core.act.inXsel = some r →
      let at_ := s.rails.filter fun b =>
        b.cl == s.key.cl.val && b.west == r.west && b.dead == none && b.stageAt s.time == some (stripOf s.key.sl.val)
      Yields (.railCapture s.key) s fun t => t.rails = s.rails ∧ t.core.act.regs = s.core.act.regs ∧
        ∃ x, t.core.act.stage = some (.captured x) ∧ (at_ = [] → x = 0) ∧ ∀ b, at_ = [b] → x = b.x)

/-- R359, R361-R366, R370, R371, R375, R434: a slot of column 0 carries a retransmission first, else the oldest entries of its partition; a
beat is applied four ticks later to the keeper copy and to every mirror that is not stale, or put up again where a station failed it in
the first odd slot from two ticks after it; a pass gives its plies the keeper copy and ends with their buffered entries applied; COMMIT
makes a shadow plan active at the second frame boundary; an allocation waits for its frame boundary. The model's own choices: the plan that
becomes active is the shadow as it stands at the COMMIT (entry 39, DEDUCED); a RETRANSMISSION_REQUEST in any other tick than that of R365
does nothing (entry 86, DESIGN CHOICE). -/
def Obligations.ClearingEvents : Prop :=
  ∀ (s : State),
    (s.slot ≠ 0 → s.slot ≠ 16 → s.slot ≠ 32 →
      let stn := planStn (planEntry s.clr.active 0 s.slot)
      let part := planPart (planEntry s.clr.active 0 s.slot)
      stn ≠ 15 → s.beatOut stn part = false →
      (∀ b, s.resendOf stn part = some b → Yields .clearingBeatSend s fun t => t.clr.queue = s.clr.queue ∧
        ∃ x, t.clr.beats = s.clr.beats ++ [x] ∧ x.entries = b.entries ∧ x.station = stn ∧ x.part = part ∧ x.sent = s.time ∧
          x.failed = false ∧ (s.time + 4, Instr.beatApplied x.id) ∈ t.cal) ∧
      (s.resendOf stn part = none → (takeEntries stn part s).1 ≠ [] → Yields .clearingBeatSend s fun t => t.clr.keeper = s.clr.keeper ∧
        ∃ x, t.clr.beats = s.clr.beats ++ [x] ∧ x.entries.length ≤ 16 ∧ x.entries ≠ [] ∧ x.station = stn ∧ x.part = part ∧
          x.sent = s.time ∧ x.failed = false ∧ (s.time + 4, Instr.beatApplied x.id) ∈ t.cal ∧
          ∀ e ∈ x.entries, (∃ q ∈ s.clr.queue, q.e = e ∧ q.station = stn ∧ q.part = part ∧ q.at_ ≤ s.time) ∧
            ∀ q ∈ t.clr.queue, q.station = stn → q.part = part → q.e ≠ e)) ∧
    (s.slot = 16 → s.beatOut 12 31 = false → s.resendOf 12 31 = none → zeroEntries s ≠ [] → Yields .clearingBeatSend s fun t =>
      ∃ x, t.clr.beats = s.clr.beats ++ [x] ∧ x.entries = zeroEntries s ∧ (s.time + 4, Instr.beatApplied x.id) ∈ t.cal) ∧
    (∀ (id : Nat) (b : Beat), s.clr.beats.find? (fun x => x.id == id) = some b →
      (b.failed = true → Yields (.beatApplied id) s fun t => t.clr.resend = s.clr.resend ++ [b] ∧ t.clr.keeper = s.clr.keeper ∧
        t.plies = s.plies ∧ ∀ x ∈ t.clr.beats, x.id ≠ id) ∧
      (∀ e : CEntry, b.failed = false → b.entries = [e] → e.key = some s.key → e.kind = 1 ∨ e.kind = 2 →
        (e.kind = 2 → s.plies[plyOf e.cl].bad = false) →
        let n := if e.dbl then 8 else 4
        let old := ofBytes (s.clr.keeper.readN e.addr n)
        let new (m : Memory) : Memory := m.writes (cellsAt e.addr (toBytes n
          (if e.kind = 1 then e.data.toNat else cxchNew e.op n (ofBytes (m.readN e.addr n)) e.data.toNat)))
        Yields (.beatApplied id) s fun t => t.clr.keeper = new s.clr.keeper ∧
          (∀ p : Fin 12, t.plies[p] = if s.plies[p].stale = false then { s.plies[p] with mirror := new s.plies[p].mirror }
            else if s.clr.resyncRun.contains p.val = true then { s.plies[p] with buffer := s.plies[p].buffer ++ [e] } else s.plies[p]) ∧
          t.core.toks = (s.core.toks.filter fun k => k.id != e.req) ∧ t.core.act.regs = s.core.act.regs ∧
          t.core.act.flights = if e.kind = 1 then s.core.act.flights else s.core.act.flights.map fun f =>
            if f.need = some e.req then f.fill (BitVec.ofNat 64 old) none else f)) ∧
    (∀ (id : Nat) (st : Fin 13),
      (s.hears st = true → Yields (.retransmissionRequest id st) s fun t => t.clr.keeper = s.clr.keeper ∧ t.plies = s.plies ∧
        t.clr.beats.map (fun b => b.id) = s.clr.beats.map (fun b => b.id) ∧
        (∀ b ∈ t.clr.beats, b.id = id → s.time % 2 = 1 → b.sent + 2 ≤ s.time → s.time ≤ b.sent + 3 → b.failed = true) ∧
        ((∀ b ∈ s.clr.beats, b.id = id → ¬(s.time % 2 = 1 ∧ b.sent + 2 ≤ s.time ∧ s.time ≤ b.sent + 3)) → t.clr = s.clr)) ∧
      (s.hears st = false → Yields (.retransmissionRequest id st) s fun t => t.clr = s.clr)) ∧
    (s.passDue = true → Yields .resyncPassStart s fun t => t.clr.resyncReq = [] ∧ t.clr.resyncF = s.time ∧ t.clr.keeper = s.clr.keeper ∧
      (∀ p : Fin 12, t.plies[p] = if p.val ∈ s.clr.resyncReq
        then { s.plies[p] with mirror := s.clr.keeper, buffer := [], stale := true, bad := false } else s.plies[p]) ∧
      ∃ d, s.time + 65536 ≤ d ∧ d < s.time + 90000 ∧ (d, Instr.resyncComplete) ∈ t.cal) ∧
    (s.clr.resyncRun ≠ [] → s.clr.resyncF + 65536 ≤ s.time → Yields .resyncComplete s fun t => t.clr.resyncRun = [] ∧
      t.clr.keeper = s.clr.keeper ∧ ∀ p : Fin 12, t.plies[p] = if p.val ∈ s.clr.resyncRun
        then { s.plies[p] with mirror := s.plies[p].buffer.foldl (fun m e => e.on m) s.plies[p].mirror, buffer := [], stale := false }
        else s.plies[p]) ∧
    ((s.clr.busy = true ∨ ∃ i < 960, planRefused s (i / 64) (i % 64) = true) → Yields .planctlCommit s fun t =>
      t.clr = { s.clr with err := true }) ∧
    (s.clr.busy = false → (∀ i < 960, planRefused s (i / 64) (i % 64) = false) → Yields .planctlCommit s fun t =>
      t.clr = { s.clr with busy := true, next := s.clr.shadow, commitAt := (s.time / 64 + 2) * 64 } ∧
      ((s.time / 64 + 2) * 64, Instr.planActivate) ∈ t.cal) ∧
    (s.clr.busy = true → s.time = s.clr.commitAt → Yields .planActivate s fun t =>
      t.clr = { s.clr with active := s.clr.next, busy := false } ∧ ∀ p : Fin 24, (t.part p).gen = (s.part p).gen + 1) ∧
    (∀ (p : Fin 24) (val : Word),
      let x := val &&& 0x00FFF000007FF000
      (claRefused p x s = true → Yields (.clallocWrite p val) s fun t => t.parts = s.parts) ∧
      (claRefused p x s = false → Yields (.clallocWrite p val) s fun t => (t.part p).clpend = some (x, (s.time / 64 + 1) * 64) ∧
        (t.part p).clalloc = (s.part p).clalloc ∧ (t.part p).gen = (s.part p).gen + 1 ∧ ∀ q : Fin 24, q ≠ p → t.part q = s.part q))

/-- R378, R380, R382-R385, R401, R409, R411, R414: a notice of this device, or of another by its stand tenant id, enters the table of its
consumer, waits in the hold list of one that does not run, or is declined; the release message of a decline waits while the routing entry
does, and leaves where a port is up; a release message lowers the count and the last one releases the block; an abandon ends a claim and
keeps the count; a block that has come to DUE is OVERDUE and its producer's trap pending, or RECLAIMED where the producer has ended; PUB's
wait for a record ends. The model's own choices: BLKST counts whether or not BLKEN is set (entry 73, DEDUCED); a notice for a context that
has ended is declined (entry 74, DEDUCED); one for a context in the standby slot waits (entry 59, DEDUCED); a message toward a device whose
ports are down is lost (entry 86, DESIGN CHOICE). -/
def Obligations.NoticeAndBlockEvents : Prop :=
  ∀ (s : State),
    (∀ (n : Notice) (to_ from_ : PortName) (p : Fin 24), n.stid = none ∨ (∃ x, n.stid = some x ∧ s.stidPart x = some p) →
      let dst : PortName := if n.stid = none then to_ else { to_ with part := p }
      let src : PortName := if n.stid = none then from_ else { from_ with part := p }
      let declined (t : State) : Prop := if n.peer = 4095 then (s.time + 10, Instr.releaseMessage src n.block) ∈ t.cal
        else refusedAway s t n src
      (s.portTask dst = none → Yields (.noticeArrival n to_ from_) s declined) ∧
      (∀ task, s.portTask dst = some task →
        (task.st = .done ∨ task.span ≤ dst.gang ∨ task.gang ≤ dst.role → Yields (.noticeArrival n to_ from_) s declined) ∧
        (task.st ≠ .done → task.st ≠ .running → dst.gang < task.span → dst.role < task.gang →
          Yields (.noticeArrival n to_ from_) s fun t =>
            if (s.part dst.part).hold.length < 4096 then (t.part dst.part).hold = (s.part dst.part).hold ++ [(n, dst, src)]
            else declined t) ∧
        (task.st = .running → dst.gang < task.span → dst.role < task.gang → s.portCore dst = some s.key → s.core.act.ended = false →
          s.core.port.used < 512 → ((s.part dst.part).hold.any fun h => h.2.1 == dst) = false → Yields (.noticeArrival n to_ from_) s fun t =>
            t.core.ev[12] = s.core.ev[12] + 1 ∧ t.core.act = s.core.act ∧ t.core.spm = s.core.spm ∧
            ∃ x ∈ t.core.port.inb, x.e = .notice n src (if s.core.port.hasBuf n.tag then 2 else 1) n.loc 0 ∧
              x.order = s.core.port.order ∧ x.idx < 512 ∧ ∀ y ∈ s.core.port.inb, y.idx ≠ x.idx))) ∧
    (∀ (n : Notice) (dst src : PortName) (x : BitVec 16), n.stid = some x → s.stidPart x = none → n.peer ≠ 4095 →
      Yields (.noticeArrival n dst src) s fun t => t.parts = s.parts ∧ t.core = s.core ∧ refusedAway s t n src) ∧
    (∀ (dst : PortName) (block : BitVec 32) (b : Block), s.portCore dst = some s.key → s.core.port.block? block = some b →
      (Yields (.releaseMessage dst block) s fun t => ∃ x, t.core.port.block? block = some x ∧ x =
        (if b.st ∈ [1, 2, 3, 4] then (if 1 < b.rcnt then { b with rcnt := b.rcnt - 1 } else { b with rcnt := 0, st := 5 }) else b)) ∧
      (∀ pull, Yields (.abandon dst block pull) s fun t => ∃ x, t.core.port.block? block = some x ∧
        x = { b with claims := b.claims.filter fun c => c != pull, owed := b.owed.filter fun o => o.1 != pull,
                     served := b.served.filter fun c => c != pull })) ∧
    (∀ (block : BitVec 32) (b : Block), s.core.port.block? block = some b → b.st = 2 ∨ b.st = 3 → 0 < b.rcnt → b.due ≤ s.time →
      (s.core.act.ended = false → Yields (.blockOverdue s.key block) s fun t => t.core.port.block? block = some { b with st := 4 } ∧
        t.core.act.asyncQ = s.core.act.asyncQ ++ [block.setWidth 64] ∧ t.core.act.sys.estat = s.core.act.sys.estat ||| 0x10 ∧
        t.core.act.regs = s.core.act.regs) ∧
      (s.core.act.ended = true → Yields (.blockOverdue s.key block) s fun t => t.core.port.block? block = some { b with st := 6 } ∧
        t.core.act = s.core.act ∧
        let p := s.part s.core.act.part
        (t.part s.core.act.part).blkst = BitVec.ofNat 64 (block.toNat * 2 ^ 32 + Nat.min 0xFFFF (p.blkst.toNat % 2 ^ 16 + 1)) ∧
        t.out = s.out ++ (if p.irqcfg.getLsbD 15 = true
          then [.msix (s.core.act.part.val + 1) (p.irqcfg.toNat / 2 ^ 8 % 2 ^ 6)] else []))) ∧
    (∀ n g cons, s.core.act.stage = some (.publishing g cons (some n)) → n ≤ s.time → s.core.port.freeBlock = none →
      Yields (.pubTimeout s.key) s fun t =>
        t.core.act = { s.core.act with stage := some .over })

/-- R361, R385, R386, R389-R392, R394-R396, R428: a grant reserves its space behind what the buffer has given and makes the notice PULLING;
an expired deferral lets a notice rank again; the chunk request that stands first in the round robin of its meters takes its bytes from the
bucket and reaches a producer of this device four ticks later; the producer answers with the bytes of the block in the order in which it has
begun to, once the plan and the mesh take them, as withdrawn, or as deferred at a save; a chunk that lands is written, credited and, as the
last, completes the pull; a deferred pull ranks again after 4,096 ticks and gives its space back. The model's own choices: a withdrawn or
deferred answer takes the 8 ticks of the data leg (entry 75, DEDUCED); the producer's tokens of the mesh (entry 92, DEDUCED); space given
back out of order (entry 30, DEDUCED); the order of requests at several meters (entry 91, DESIGN CHOICE); a beat of the data that is lost
(entry 86, DESIGN CHOICE). -/
def Obligations.PullEvents : Prop :=
  ∀ (s : State),
    (∀ (r : Ranked) (i base size used : Nat) (h : Fin 256), grantReady s = true → s.core.act.chunkMode = 0 → grantChoice s = some r →
      s.core.port.room r.n = some (i, base, size, used, h) → 0 < r.n.size → i ≠ r.e.idx → 0 < s.core.act.chunkSize →
      Yields (.pullGrant s.key) s fun t =>
        let took := Nat.min ((r.n.size + 63) / 64 * 64) (size - used)
        t.core.port.lastGrant = s.time ∧ t.core.spm = s.core.spm ∧ t.core.act = s.core.act ∧
        (∃ q, t.core.port.pulls = s.core.port.pulls ++ [q] ∧ q.idx = r.e.idx ∧ q.buf = i ∧ q.base = base + used ∧ q.took = took ∧
          q.next = 0 ∧ q.h = h ∧ (q.count - 1) * s.core.act.chunkSize < r.n.size ∧ r.n.size ≤ q.count * s.core.act.chunkSize) ∧
        (∀ x ∈ t.core.port.inb, x.idx = r.e.idx → x.e = .notice r.n r.src 3 r.n.loc 0) ∧
        ∀ y ∈ s.core.port.inb, ∀ tag, y.idx = i → y.e = .landing tag base size used h →
          ∃ x ∈ t.core.port.inb, x.idx = i ∧ x.e = .landing tag base size (used + took) h) ∧
    (∀ (k : Fin 512) (x : InSlot) (n : Notice) (src : PortName) (st : Nat) (loc : Word) (d : Nat), x ∈ s.core.port.inb → x.idx = k.val →
      x.e = .notice n src st loc d → d ≤ s.time → Yields (.deferralExpiry s.key k) s fun t =>
        { x with e := .notice n src st loc 0 } ∈ t.core.port.inb ∧ t.core.port.inb.length = s.core.port.inb.length ∧
        ∀ y ∈ s.core.port.inb, y.idx ≠ k.val → y ∈ t.core.port.inb) ∧
    (∀ (q : Pull) (n : Notice) (src : PortName) (off c : Nat), chunkReady s = true → nextChunk s.core = some (q, n, src, off, c) →
      let turn := roundRobin (s.part s.core.act.part) (contenders s s.core.act.part)
      (turn = some s.key → Yields (.chunkRequest s.key) s fun t =>
        t.core.port.bucket + 16 * c = s.core.port.bucket ∧ t.core.port.outstanding = s.core.port.outstanding + 1 ∧
        t.core.port.outstanding ≤ 16 ∧ t.agenda = .chunkRequest s.key :: s.agenda ∧
        ∃ x, t.chunks = s.chunks ++ [x] ∧ x.key = s.key ∧ x.pull = q.id ∧ x.n = q.next ∧ x.off = off ∧ x.size = c ∧ x.src = src ∧
          x.block = n.block ∧
          (n.peer = 4095 → t.out = s.out ∧ (s.time + 4, Instr.chunkServe (.here x.id)) ∈ t.cal) ∧
          (n.peer ≠ 4095 → t.out = s.out ++ [.chunkAsk n.peer n.block off c] ∧ ∃ h p, q.route n s = some (h, p) ∧
            (s.time + 4 + 26 * h, Instr.chunkServe (.here x.id)) ∈ t.cal)) ∧
      (∀ k, turn = some k → k ≠ s.key → Yields (.chunkRequest s.key) s fun t => t.core = s.core ∧ t.chunks = s.chunks ∧
        t.agenda = .chunkRequest k :: .chunkRequest s.key :: s.agenda)) ∧
    (∀ (x : Chunk), s.chunks.find? (fun y => y.id == x.id) = some x → x.asks = false → x.hops = 0 →
      (∀ n src, (s.coreAt x.key).port.notice? x.idx = some (n, src) → n.peer = 4095) → s.portCore x.src = some s.key →
      let far : Bool := plyOf x.key.cl.val != plyOf s.key.cl.val
      let open_ : Prop := far = true → s.planned [(plyOf x.key.cl.val).val, (plyOf s.key.cl.val).val] x.src.part.val = true
      let lost : Prop := far = true ∧ Config.beatLost s.seed = true
      let answers (o : Nat) (d : List Byte) (t : State) : Prop := { x with outcome := o, data := d } ∈ t.chunks ∧
        ∃ n, s.time + 8 ≤ n ∧ (o = 1 ∨ o = 2 → far = false → n = s.time + 8) ∧ (n, Instr.chunkLanded x.id) ∈ t.cal
      let claim := claimOf false x.pull
      (¬ open_ → Yields (.chunkServe (.here x.id)) s fun t => t.core = s.core ∧ t.chunks = s.chunks ∧
        (s.time + 1, Instr.chunkServe (.here x.id)) ∈ t.cal) ∧
      (open_ → s.core.port.block? x.block = none → Yields (.chunkServe (.here x.id)) s (answers 1 [])) ∧
      (∀ b, open_ → s.core.port.block? x.block = some b → (x.block.toNat, claim, x.off) ∉ s.core.port.waits →
        let stops : Prop := x.first = false ∨ s.saving = true ∨ s.core.act.stoppedForSave = true
        (b.st ∉ [1, 2, 3, 4] → Yields (.chunkServe (.here x.id)) s (answers 1 [])) ∧
        (b.st ∈ [1, 2, 3, 4] → claim ∉ b.claims → stops → Yields (.chunkServe (.here x.id)) s (answers 2 [])) ∧
        (b.st ∈ [1, 2, 3, 4] → claim ∈ b.claims ∨ ¬stops → s.core.port.waits ≠ [] ∨ s.meshOpen s.key s.core.act.part x.size = false →
          Yields (.chunkServe (.here x.id)) s fun t => t.chunks = s.chunks ∧ (s.time + 1, Instr.chunkServe (.here x.id)) ∈ t.cal ∧
            t.core.port.waits = s.core.port.waits ++ [(x.block.toNat, claim, x.off)]) ∧
        (b.st ∈ [1, 2, 3, 4] → claim ∈ b.claims ∨ ¬stops → s.core.port.waits = [] → s.meshOpen s.key s.core.act.part x.size = true →
          b.spm = true →
          let a := b.loc.toNat % 2 ^ 22 + x.off
          touch a x.size s = (s, .ok) → s.core.badAt a x.size = false → Yields (.chunkServe (.here x.id)) s fun t =>
            (¬ lost → answers 0 (s.core.spRead a x.size) t) ∧ (lost → answers 3 [] t) ∧ t.core.spm = s.core.spm ∧
            ∃ c, t.core.port.block? x.block = some c ∧ c.st = (if b.st = 1 ∨ b.st = 2 then 3 else b.st) ∧ c.rcnt = b.rcnt))) ∧
    (∀ (x : Chunk) (q : Pull) (n : Notice) (src : PortName), s.chunks.find? (fun y => y.id == x.id) = some x → x.key = s.key →
      s.core.port.pulls.filter (fun y => y.id == x.pull) = [q] → s.core.port.notice? q.idx = some (n, src) →
      (x.outcome = 0 → q.withdrawn = false → 0 < x.size → touch (q.base + x.off) x.size s = (s, .ok) →
        Yields (.chunkLanded x.id) s fun t =>
          t.core.spm = (s.core.spWrite (q.base + x.off) x.data).spm ∧ (∀ y ∈ t.chunks, y.id ≠ x.id) ∧
          t.core.port.outstanding = s.core.port.outstanding - 1 ∧
          t.core.handles = s.core.handles.set q.h ((s.core.handles[q.h]).credit x.size true).1 ∧
          (q.resolved + 1 < q.count → { q with resolved := q.resolved + 1, credited := q.credited + x.size } ∈ t.core.port.pulls) ∧
          (q.resolved + 1 = q.count → (∀ y ∈ t.core.port.pulls, y.id ≠ q.id) ∧
            (∀ y ∈ t.core.port.inb, y.idx = q.idx → y.e = .notice n src 4 (BitVec.ofNat 64 q.base) 0) ∧
            (n.peer = 4095 → s.farPort src = false → (s.time + 10, Instr.releaseMessage src n.block) ∈ t.cal) ∧
            (n.peer = 4095 → s.farPort src = true → s.planned [(plyOf s.key.cl.val).val] src.part.val = true →
              ∃ d, s.time + 10 ≤ d ∧ (d, Instr.releaseMessage src n.block) ∈ t.cal))) ∧
      (x.outcome = 1 → q.resolved + 1 < q.count → Yields (.chunkLanded x.id) s fun t => t.core.spm = s.core.spm ∧
        t.core.handles = s.core.handles ∧ { q with resolved := q.resolved + 1, withdrawn := true } ∈ t.core.port.pulls) ∧
      (x.outcome = 2 → Yields (.chunkLanded x.id) s fun t => (∀ y ∈ t.core.port.pulls, y.id ≠ q.id) ∧ t.core.spm = s.core.spm ∧
        (s.time + 4096, Instr.deferralExpiry s.key (Fin.ofNat 512 q.idx)) ∈ t.cal ∧
        (∃ y ∈ t.core.port.inb, y.idx = q.idx ∧ ∃ st, y.e = .notice n src st n.loc (s.time + 4096)) ∧
        ∀ y ∈ s.core.port.inb, ∀ tag base size used h, y.idx = q.buf → q.buf ≠ q.idx → y.e = .landing tag base size used h →
          ∃ z ∈ t.core.port.inb, z.idx = q.buf ∧ z.e = .landing tag base size (used - q.took) h))

/-- R407, R409-R411, R413, R414, R417-R421: a port trains, comes up where it finds the neighbour of its number, and gives its waiting
requests back as refused when it goes down; a routing entry is written once nothing is outstanding toward its position; a request leaves
for one token, or is refused with reason 4 where its path is down or after 2^20 ticks; one that arrives is translated by its tenant's
tables and applied, and one for another position is passed on by way of its intermediate; additions join a group of at most 32 for 64 ticks
and are applied in turn, or go on together; a time beat sets SYNC and a new MASTER. The model's own choices: PORT_DOWN sets ERR (entry 44,
DEDUCED); a request takes its tokens of the mesh with that of R417 (entry 92, DEDUCED); additions join a group up to its closing tick
(entry 91, DESIGN CHOICE); a reply whose port is down is lost (entry 86, DESIGN CHOICE). -/
def Obligations.CanopyEvents : Prop :=
  ∀ (s : State), s.sound →
    (∀ n : Fin 64,
      let w := s.link.ports[n]
      let alone (t : State) : Prop := ∀ m : Fin 64, m ≠ n → t.link.ports[m] = s.link.ports[m]
      (Yields (.portEnable n) s fun t => alone t ∧ (w.getLsbD 3 = true → t.link.ports[n] = w) ∧
        (w.getLsbD 3 = false → t.link.ports[n].getLsbD 63 = true ∧ t.link.ports[n].getLsbD 3 = false)) ∧
      (∀ nbr, w.getLsbD 63 = true →
        let fits : Prop := 60 ≤ n.val ∨ s.expects n.val = some nbr
        Yields (.portTrained n nbr) s fun t => alone t ∧ t.link.ports[n].getLsbD 63 = false ∧ (t.link.ports[n].getLsbD 3 = true ↔ fits) ∧
          (¬fits → t.link.ports[n].getLsbD 2 = true) ∧ t.link.ports[n].toNat / 2 ^ 16 % 2 ^ 12 = nbr % 2 ^ 12) ∧
      (∀ i ∈ [Instr.portDisable n, .portDown n], i = .portDisable n ∨ w.getLsbD 3 = true → Yields i s fun t =>
        alone t ∧ t.link.ports[n].getLsbD 3 = false ∧ (i = .portDown n → t.link.ports[n].getLsbD 2 = true) ∧
        ∀ r ∈ s.reqs, waitsAt s n r = true → { r with bad := 4 } ∈ t.reqs ∧ replyEvent r ∈ t.agenda)) ∧
    (∀ (n : Fin 3541) (val : Word), let x := val &&& 0xFFFFFFFF00FFFFFF
      (s.towardBusy n = false → Yields (.routeWrite n val) s fun t => lookupD t.link.routes n 0 = x ∧ (∀ r ∈ t.link.routePend, r.1 ≠ n) ∧
        ∀ m, m ≠ n.val → lookupD t.link.routes m 0 = lookupD s.link.routes m 0) ∧
      (s.towardBusy n = true → Yields (.routeWrite n val) s fun t => t.link.routes = s.link.routes ∧ (n.val, x) ∈ t.link.routePend)) ∧
    (∀ (r : Req) (pos : Nat), s.req? r.id = some r → r.remote = some pos → r.sent = 0 → r.applied = false → r.bad = 0 → r.held = false →
      let waits : Prop := (s.link.routePend.any fun x => x.1 == pos) = true ∨ (s.part r.part).reqctl.toNat % 2 ^ 8 = 0 ∨
        reqTokens (s.part r.part) pos < 256 ∨ s.earlierRemote r pos = true
      (waits ∨ s.pathUp pos (r.gva.getLsbD 7) = true ∧ s.inject r = none → Yields (.remoteRequest (.leaves r.id)) s fun t => t.reqs = s.reqs ∧
        (s.time + 1, Instr.remoteRequest (.leaves r.id)) ∈ t.cal) ∧
      (¬waits → s.pathUp pos (r.gva.getLsbD 7) = false → Yields (.remoteRequest (.leaves r.id)) s fun t =>
        { r with bad := 4 } ∈ t.reqs ∧ Ahead s t (replyEvent r) ∧ t.out = s.out) ∧
      (¬waits → s.pathUp pos (r.gva.getLsbD 7) = true → s.inject r ≠ none → Yields (.remoteRequest (.leaves r.id)) s fun t =>
        t.out = s.out ++ [.remote pos (BitVec.ofNat 16 (s.part r.part).partstid.toNat) r.id r.gva
          (decide (r.kind = .atom .add) && (s.part r.part).reqctl.getLsbD 8)] ∧ Ahead s t (replyEvent r) ∧
        reqTokens (t.part r.part) pos + 256 = reqTokens (s.part r.part) pos)) ∧
    (∀ (r : Req), s.req? r.id = some r → r.remote.isSome = true → r.held = false → r.issue + 2 ^ 20 ≤ s.time →
      Yields (.remoteTimeout r.id) s fun t =>
        { r with applied := false, bad := 4, sent := s.time } ∈ t.reqs ∧ replyEvent r ∈ t.agenda) ∧
    (∀ (src : Nat) (via : Option Nat) (stid : BitVec 16) (op : RemoteOp) (gva : Word) (n : Nat) (v : Word) (tag : Nat),
      let i := Instr.remoteRequest (.arrives src via stid op gva n v tag)
      let again := Instr.remoteRequest (.arrives src (via.filter (· != s.link.pos)) stid op gva n v tag)
      let replied (m : Out) (t : State) : Prop := t.out = s.out ++ (if s.pathUp src (gva.getLsbD 7) = true then [m] else [])
      let answers (why : Nat) (t : State) : Prop := replied (.remoteReply tag why 0 0) t
      (s.ownDevice (peerOf gva) = false → Yields i s fun t => (∀ a, t.rd a = s.rd a) ∧
        match s.transitPort (s.nextStop (peerOf gva) via) with
        | some port => t.out = s.out ++ [.forward port again]
        | none => answers 4 t) ∧
      (s.ownDevice (peerOf gva) = true →
      (∀ why, remoteTarget stid (RemoteOp.writes op) gva s = .refused why → Yields i s fun t => answers why t ∧ ∀ a, t.rd a = s.rd a) ∧
      (remoteTarget stid (RemoteOp.writes op) gva s = .wait → Yields i s fun t => (s.time + 256, again) ∈ t.cal ∧ ∀ a, t.rd a = s.rd a) ∧
      (∀ pa, remoteTarget stid (RemoteOp.writes op) gva s = .ok pa → s.lineBad pa = true → op ≠ .st → op ≠ .stl → Yields i s (answers 0x13)) ∧
      (∀ pa, remoteTarget stid (RemoteOp.writes op) gva s = .ok pa → s.lineBad pa = false →
        let old := ofBytes (s.rdN pa n)
        let new : Option Nat := match op with
          | .ld | .lda => none
          | .st | .stl => some v.toNat
          | .atom a => some (atomNew a n old (v.toNat % 2 ^ (8 * n)))
          | .cas cmp => if old = cmp.toNat % 2 ^ (8 * n) then some v.toNat else none
        Yields i s fun t =>
          replied (.remoteReply tag 0 (BitVec.ofNat 64 (if op = .st ∨ op = .stl then 0 else old)) (t.line pa).tag) t ∧
          (∀ a, a < pa ∨ pa + n ≤ a → t.rd a = s.rd a) ∧
          (new = none → ∀ a, t.rd a = s.rd a) ∧ ∀ x, new = some x → t.rdN pa n = toBytes n x))) ∧
    (∀ (port : Fin 60) (stid : BitVec 16) (gva : Word) (dbl : Bool) (v : Word) (m : Combined),
      let fits (g : Group) : Bool := g.stid == stid && g.gva == gva && g.dbl == dbl && !g.closed && decide (g.members.length < 32)
      ((∀ g ∈ s.link.groups, fits g = false) → Yields (.combineArrival port stid gva dbl v m) s fun t =>
        ∃ g, t.link.groups = s.link.groups ++ [g] ∧ g.stid = stid ∧ g.gva = gva ∧ g.dbl = dbl ∧ g.openedAt = s.time ∧
          g.closed = false ∧ g.members = [(m, v)] ∧ (s.time + 64, Instr.combineGroupClose g.id) ∈ t.cal) ∧
      (∀ g, s.link.groups.find? fits = some g → g.members.length < 31 → Yields (.combineArrival port stid gva dbl v m) s fun t =>
        { g with members := g.members ++ [(m, v)] } ∈ t.link.groups ∧ t.out = s.out ∧ t.link.groups.length = s.link.groups.length)) ∧
    (∀ (g : Group), s.link.groups.find? (fun x => x.id == g.id) = some g →
      let n := if g.dbl then 8 else 4
      let sum (ms : List (Combined × Word)) : Nat := (ms.map fun m => m.2.toNat).sum
      let replies (f : Nat → Combined → Out) : List Out := (g.members.zipIdx.filter fun m => s.pathUp m.1.1.src (g.gva.getLsbD 7)).map
        fun m => f m.2 m.1.1
      let refused (why : Nat) : State → Prop := fun t => (∀ x ∈ t.link.groups, x.id ≠ g.id) ∧ (∀ a, t.rd a = s.rd a) ∧
        t.out = s.out ++ replies fun _ m => .remoteReply m.tag why 0 0
      let stop := s.transitPort (s.nextStop (peerOf g.gva) (g.members.head?.bind fun m => m.1.via))
      (s.time < g.openedAt + 64 → Yields (.combineGroupClose g.id) s fun t => t.link = s.link ∧ t.out = s.out) ∧
      (∀ why, g.openedAt + 64 ≤ s.time → s.ownDevice (peerOf g.gva) = true → remoteTarget g.stid true g.gva s = .refused why →
        Yields (.combineGroupClose g.id) s (refused why)) ∧
      (g.openedAt + 64 ≤ s.time → s.ownDevice (peerOf g.gva) = false →
        (stop = none → Yields (.combineGroupClose g.id) s (refused 4)) ∧
        (∀ p, stop = some p → Yields (.combineGroupClose g.id) s fun t => (∀ x ∈ t.link.groups, x.id ≠ g.id) ∧ (∀ a, t.rd a = s.rd a) ∧
          ∃ via rest, t.out = s.out ++ .combined p via g.gva g.stid g.dbl (BitVec.ofNat 64 (sum g.members % 2 ^ (8 * n)))
            (g.members.map fun m => m.1.adds).sum :: rest)) ∧
      (∀ pa, g.openedAt + 64 ≤ s.time → s.ownDevice (peerOf g.gva) = true → remoteTarget g.stid true g.gva s = .ok pa →
        s.lineBad pa = false →
        let left (i : Nat) : Nat := ((g.members.drop (i + 1)).map fun m => m.1.adds).sum
        Yields (.combineGroupClose g.id) s fun t => (∀ x ∈ t.link.groups, x.id ≠ g.id) ∧
          (∀ a, a < pa ∨ pa + n ≤ a → t.rd a = s.rd a) ∧
          ofBytes (t.rdN pa n) = (ofBytes (s.rdN pa n) + sum g.members) % 2 ^ (8 * n) ∧
          t.out = s.out ++ replies fun i m => .remoteReply m.tag 0
            (BitVec.ofNat 64 ((ofBytes (s.rdN pa n) + sum (g.members.take i)) % 2 ^ (8 * n))) ((t.line pa).tag - BitVec.ofNat 32 (left i))) ∧
      (g.openedAt + 64 ≤ s.time → s.ownDevice (peerOf g.gva) = true → remoteTarget g.stid true g.gva s = .wait →
        Yields (.combineGroupClose g.id) s fun t => { g with closed := true } ∈ t.link.groups ∧ t.out = s.out ∧
          (s.time + 256, Instr.combineGroupClose g.id) ∈ t.cal)) ∧
    (∀ within, (s.link.join = false → Yields (.timeBeat within) s fun t => t.link = s.link) ∧
      (s.link.join = true → Yields (.timeBeat within) s fun t => t.link.newMaster = none ∧ t.link.ports = s.link.ports ∧
        t.link.standcfg.getLsbD 29 = within ∧ t.link.standcfg.getLsbD 28 = (s.link.standcfg.getLsbD 28 || !within) ∧
        t.link.standcfg.toNat % 2 ^ 28 = s.link.standcfg.toNat % 2 ^ 28 ∧
        t.link.standcfg.toNat / 2 ^ 36 % 2 ^ 12 =
          (match s.link.newMaster with | some m => m % 2 ^ 12 | none => s.link.standcfg.toNat / 2 ^ 36 % 2 ^ 12)))

/-- R425, R426, R432, R433, R437, R493: CREATE takes the shadow and starts from Reset, APPLY and DESTROY begin the change to their masks,
and all three set ERR where they are refused; the change ends with the masks in force, the leaving cores cleared and the leaving memory
zero; a Function Level Reset stops what runs and discards what waits; a report holds the nonce, both measurements and 3,309 bytes of
signature, whose value is free (entry 10). The model's own choices: the change ends in one event, CREATE leaves the task queue empty, and
what refuses a DESTROY (entry 55, DEDUCED). -/
def Obligations.PartitionEvents : Prop :=
  ∀ (s : State), s.sound →
    (∀ p : Fin 24,
      let q := s.part p
      let refused (t : State) : Prop := t.parts = s.parts.set p { q with err := true }
      (partBusy p s = true ∨ q.state ≠ 0 ∨ q.shadow.lacks = true → Yields (.partcmdCreate p) s refused) ∧
      (partBusy p s = false → q.state = 0 → q.shadow.lacks = false → Yields (.partcmdCreate p) s fun t =>
        (t.part p).state = 1 ∧ (t.part p).active = q.shadow ∧ (t.part p).tasks = [] ∧ (t.part p).schctl = 0x10140100 ∧
        (t.part p).gracecfg = 0x100000 ∧ (t.part p).maproot = 0 ∧ (t.part p).gen = q.gen + 1 ∧ (∀ a, t.rd a = s.rd a) ∧
        ∀ o : Fin 24, o ≠ p → t.part o = s.part o) ∧
      (partBusy p s = true ∨ q.state ≠ 1 ∨ q.shadow.lacks = true → Yields (.partcmdApply p) s refused) ∧
      (partBusy p s = false → q.state = 1 → q.shadow.lacks = false → Yields (.partcmdApply p) s fun t =>
        (t.part p).state = 2 ∧ (t.part p).busy = true ∧ (t.part p).target = q.shadow ∧ (t.part p).active = q.active) ∧
      (partBusy p s = true → Yields (.partcmdDestroy p) s refused) ∧
      (partBusy p s = false → Yields (.partcmdDestroy p) s fun t =>
        (t.part p).state = 2 ∧ (t.part p).busy = true ∧ (t.part p).target = ⟨0, 0, 0⟩ ∧ (t.part p).destroying = true) ∧
      (applyReady s p = false → Yields (.applyComplete p) s fun t => t.parts = s.parts ∧ ∀ a, t.rd a = s.rd a) ∧
      (applyReady s p = true → Yields (.applyComplete p) s fun t =>
        (t.part p).active = q.target ∧ (t.part p).busy = false ∧ (t.part p).state = (if q.destroying then 0 else 1) ∧
        (t.part p).gen = q.gen + 1 ∧ (∀ a, inGroups (q.active.ch &&& ~~~q.target.ch) a = true → t.rd a = 0) ∧
        (q.cntbase = 0 → ∀ a, inGroups (q.active.ch &&& ~~~q.target.ch) a = false → t.rd a = s.rd a) ∧
        ∀ k : CoreKey, q.active.cl.getLsbD k.cl.val = true → q.target.cl.getLsbD k.cl.val = false →
          (t.coreAt k).spm = [] ∧ (t.coreAt k).act = .blank ∧ (t.coreAt k).ev = Vector.replicate 25 0) ∧
      (∀ task, q.tasks = [task] →
        (task.st = .waiting ∨ task.st = .ready ∨ task.st = .saved → task.gangs = [] → Yields (.functionLevelReset p) s fun t =>
          (t.part p).tasks = [] ∧ (t.part p).doorbells = [] ∧ (t.part p).flr = true ∧
          ∀ l ∈ q.launches, task.launch = some l.id → ∃ x ∈ (t.part p).launches, x.id = l.id ∧ x.next = l.ntask ∧ x.quiet = true ∧
            x.left = l.left - 1 ∧ x.aborted = l.aborted + 1 + (l.ntask - l.next)) ∧
        (∀ (g : Gang) (m : Member), task.st = .running → task.gangs = [g.id] → s.gang? g.id = some g → g.members = [m] →
          memberKey g m = s.key → s.core.act.gid = g.id → s.core.act.st ≠ .empty → g.part = p → s.core.act.part = p →
          Yields (.functionLevelReset p) s fun t => t.core.act.st = .done ∧ t.core.spm = [] ∧ (t.part p).flr = true ∧
            ∃ x, (t.part p).tasks = [x] ∧ x.serial = task.serial ∧ x.aborted = true))) ∧
    (∀ (p : Fin 24) (nonce : BitVec 256), Yields (.attestationRequest p nonce) s fun t => ∃ body : List Byte,
      t = { s with out := s.out ++ [.report (body ++ toBytes 3309 (Config.signature body).toNat)] } ∧ body.length = 0xB8 ∧
      ofBytes (body.take 4) = 0x5A484154 ∧ ofBytes ((body.drop 4).take 4) = (if (s.part p).state = 0 then 0xFF else p.val) ∧
      ofBytes ((body.drop 8).take 32) = nonce.toNat ∧ ofBytes ((body.drop 0x28).take 64) = s.fwMeasure.toNat ∧
      ofBytes ((body.drop 0x68).take 64) = (s.part p).measure.toNat ∧ ofBytes ((body.drop 0xA8).take 4) = (s.part p).gen.toNat ∧
      ofBytes ((body.drop 0xAC).take 4) = 0 ∧ ofBytes ((body.drop 0xB0).take 8) = s.time % 2 ^ 64)
end

