-- ==== Sys2Proof/Laws/Memory.lean ====
section
/-! SUPPORT. Device memory and scratchpads: the canonical form is kept, and a read after a write gives what was written. -/

namespace Sys2Proof.Machine

/-- No entry of a memory in canonical form stands at or below an address that its first entry exceeds. -/
theorem Memory.read_below (m : Memory) (a : Nat) (h : m.wf = true) (k : ∀ c ∈ m.head?, a < c.1) : m.read a = Memory.unlisted := by
  cases m with
  | nil => rfl
  | cons c t =>
    have hk : a < c.1 := k c (by simp)
    obtain ⟨x, v⟩ := c
    simp only [Memory.read]
    have : ¬ a = x := by simp at hk; omega
    simp at hk
    simp [this, hk]

theorem Memory.wf_cons (a : Nat) (v : Byte) (t : Memory) :
    Memory.wf ((a, v) :: t) = true ↔ v ≠ Memory.unlisted ∧ (∀ c ∈ t.head?, a < c.1) ∧ t.wf = true := by
  cases t with
  | nil => simp [Memory.wf]
  | cons c t => obtain ⟨b, w⟩ := c; simp [Memory.wf, and_assoc]

/-- The first address of a memory that has been written is the written one or the first of the memory before. -/
theorem Memory.write_head (m : Memory) (a b : Nat) (v : Byte) (ha : b < a) (hm : ∀ c ∈ m.head?, b < c.1) (h : m.wf = true) :
    ∀ c ∈ (m.write a v).head?, b < c.1 := by
  cases m with
  | nil =>
    simp only [Memory.write]
    split <;> simp [ha]
  | cons c t =>
    obtain ⟨x, w⟩ := c
    have hx : b < x := by simpa using hm
    have ht := ((Memory.wf_cons x w t).1 h).2.1
    simp only [Memory.write]
    split
    · split
      · intro c hc; have := ht c hc; omega
      · simp [ha]
    · split
      · split <;> simp [ha, hx]
      · simp [hx]

/-- Writing one byte keeps the canonical form. -/
theorem Memory.write_wf (m : Memory) (a : Nat) (v : Byte) (h : m.wf = true) : (m.write a v).wf = true := by
  induction m with
  | nil =>
    simp only [Memory.write]
    split
    · rfl
    · rename_i hv; exact (Memory.wf_cons a v []).2 ⟨hv, by simp, rfl⟩
  | cons c t ih =>
    obtain ⟨x, w⟩ := c
    obtain ⟨hw, hh, ht⟩ := (Memory.wf_cons x w t).1 h
    simp only [Memory.write]
    split
    · rename_i hax
      subst hax
      split
      · exact ht
      · rename_i hv; exact (Memory.wf_cons a v t).2 ⟨hv, hh, ht⟩
    · split
      · rename_i hlt
        split
        · exact h
        · rename_i hv; exact (Memory.wf_cons a v _).2 ⟨hv, by simpa using hlt, h⟩
      · rename_i hne hlt
        exact (Memory.wf_cons x w _).2 ⟨hw, Memory.write_head t a x v (by omega) hh ht, ih ht⟩

/-- Reading after writing one byte. -/
theorem Memory.read_write (m : Memory) (a b : Nat) (v : Byte) (h : m.wf = true) :
    (m.write a v).read b = if b = a then v else m.read b := by
  induction m with
  | nil =>
    simp only [Memory.write]
    split <;> by_cases hb : b = a <;> simp_all [Memory.read]
  | cons c t ih =>
    obtain ⟨x, w⟩ := c
    obtain ⟨hw, hh, ht⟩ := (Memory.wf_cons x w t).1 h
    have below (y : Nat) (hy : y ≤ x) : Memory.read t y = Memory.unlisted :=
      Memory.read_below t y ht fun c hc => Nat.lt_of_le_of_lt hy (hh c hc)
    simp only [Memory.write]
    split
    · rename_i hax
      subst hax
      split
      · rename_i hv
        by_cases hb : b = a
        · subst hb; simp [below b (Nat.le_refl b), hv]
        · by_cases hlt : b < a
          · simp [Memory.read, hb, hlt, below b (by omega)]
          · simp [Memory.read, hb, hlt]
      · by_cases hb : b = a <;> simp [Memory.read, hb]
    · split
      · rename_i hlt
        split
        · rename_i hv
          by_cases hb : b = a
          · subst hb
            have : ¬ b = x := by omega
            simp [Memory.read, this, hlt, hv]
          · simp [hb]
        · by_cases hb : b = a
          · subst hb; simp [Memory.read]
          · by_cases hba : b < a
            · have h1 : ¬ b = x := by omega
              have h2 : b < x := by omega
              simp [Memory.read, hb, hba, h1, h2]
            · simp [Memory.read, hb, hba]
      · rename_i hne hlt
        by_cases hb : b = a
        · subst hb
          simp [Memory.read, hne, hlt, ih ht]
        · simp only [Memory.read, ih ht, hb, if_false]

/-- Writing bytes in order keeps the canonical form. -/
theorem Memory.writes_wf (m : Memory) (ws : List Host.Cell) (h : m.wf = true) : (m.writes ws).wf = true := by
  induction ws generalizing m with
  | nil => exact h
  | cons c t ih => exact ih (m.write c.1 c.2) (Memory.write_wf m c.1 c.2 h)

/-- Reading after writing bytes in order: the last write to the address decides. -/
theorem Memory.read_writes (m : Memory) (ws : List Host.Cell) (b : Nat) (h : m.wf = true) :
    (m.writes ws).read b = match ws.reverse.find? (fun c => c.1 == b) with | some c => c.2 | none => m.read b := by
  induction ws generalizing m with
  | nil => rfl
  | cons c t ih =>
    have hw := Memory.write_wf m c.1 c.2 h
    show (Memory.writes (m.write c.1 c.2) t).read b = _
    rw [ih _ hw, List.reverse_cons, List.find?_append]
    cases ht : t.reverse.find? (fun c => c.1 == b) with
    | some d => simp
    | none =>
      by_cases hb : c.1 = b
      · simp [Memory.read_write _ _ _ _ h, hb]
      · have hb' : ¬ b = c.1 := fun x => hb x.symm
        simp [Memory.read_write _ _ _ _ h, hb, hb']

/-- The bytes written before are as they were where none of the writes goes. -/
theorem Memory.read_writes_other (m : Memory) (ws : List Host.Cell) (b : Nat) (h : m.wf = true) (hb : ∀ c ∈ ws, c.1 ≠ b) :
    (m.writes ws).read b = m.read b := by
  rw [Memory.read_writes m ws b h]
  have : ws.reverse.find? (fun c => c.1 == b) = none := by
    rw [List.find?_eq_none]
    intro c hc
    simpa using hb c (List.mem_reverse.1 hc)
  rw [this]

end Sys2Proof.Machine
end

