-- ==== Sys2Proof/Laws/PerInstr.lean ====
section
/-! SUPPORT. The family `Slots`, one lemma for each operation: an operation has a word exactly when it stands in a slot of a bundle,
and its word has 32 bits. -/

namespace Sys2Proof.Laws.Slots

/-- The operation has a word exactly when it stands in a slot (R49), and the word has 32 bits (R30). -/
def Statement (i : Instr) : Prop := (encode i).isSome = i.slot?.isSome ∧ ∀ w, encode i = some w → w < 2 ^ 32

theorem b2n_le (b : Bool) : b2n b ≤ 1 := by cases b <;> decide

theorem guard_le (g : Guard) : encGuard g ≤ 2 ^ 25 - 2 ^ 21 := by
  have := g.idx.isLt
  have := b2n_le g.neg
  unfold encGuard
  omega

theorem src_lt (s : Src) : encSrc s < 2 ^ 7 := by
  cases s with
  | s r => have := r.isLt; simp only [encSrc]; omega
  | l n => have := n.isLt; simp only [encSrc]; omega
  | imm v => have := v.isLt; simp only [encSrc]; omega

theorem vop_lt (v : VOp) : encVOp v < 2 ^ 6 := by
  cases v with
  | v r => have := r.isLt; simp only [encVOp]; omega
  | f r => have := r.isLt; simp only [encVOp]; omega
  | l n => have := n.isLt; simp only [encVOp]; omega
  | none => simp [encVOp]

theorem scope_lt (x : Scope) : encScope x < 6 := by cases x <;> decide

theorem order_lt (x : Order) : encOrder x < 4 := by cases x <;> decide

theorem elem_lt (x : ElemT) : encElem x < 7 := by cases x <;> decide

theorem blk_lt (x : BlkT) : encBlk x < 3 := by cases x <;> decide

theorem cvt_lt (x : CvtT) : encCvt x < 15 := by cases x <;> decide

theorem cond_lt (x : Cond) : encCond x < 10 := by cases x <;> decide

theorem vCond_lt (x : VCond) : encVCond x < 7 := by cases x <;> decide

theorem red_lt (x : RedOp) : encRed x < 4 := by cases x <;> decide

theorem rMode_lt (x : RMode) : encRMode x < 5 := by cases x <;> decide

theorem atom_lt (x : AtomOp) : encAtom x < 7 := by cases x <;> decide

theorem loadW_lt (x : LoadW) : encLoadW x < 7 := by cases x <;> decide

theorem storeW_lt (x : StoreW) : encStoreW x < 4 := by cases x <;> decide

theorem hState_lt (x : HState) : encHState x < 4 := by cases x <;> decide

theorem mOp_lt (x : MOp) : encMOp x < 32 := by
  have := x.m.isLt
  cases h : x.dir <;> simp only [encMOp, h] <;> omega

theorem regF_lt (op : Nat) (h : op < 128) (r : RegF) : encRegF op r < 2 ^ 32 := by
  have := guard_le r.g
  have := b2n_le r.wb
  have := r.d.isLt
  have := src_lt r.a
  have := src_lt r.b
  simp only [encRegF]
  omega

theorem regU_lt (op : Nat) (h : op < 128) (r : RegU) : encRegU op r < 2 ^ 32 := by
  have := guard_le r.g
  have := b2n_le r.wb
  have := r.d.isLt
  have := src_lt r.a
  simp only [encRegU]
  omega

theorem regN_lt (op : Nat) (h : op < 128) (r : RegN) : encRegN op r < 2 ^ 32 := by
  have := guard_le r.g
  have := src_lt r.a
  have := src_lt r.b
  simp only [encRegN]
  omega

theorem regO_lt (op : Nat) (h : op < 128) (r : RegO) : encRegO op r < 2 ^ 32 := by
  have := guard_le r.g
  have := src_lt r.a
  simp only [encRegO]
  omega

theorem wim_lt (op : Nat) (h : op < 128) (r : WimF) : encWim op r < 2 ^ 32 := by
  have := guard_le r.g
  have := b2n_le r.wb
  have := r.d.isLt
  have := r.imm.isLt
  simp only [encWim]
  omega

theorem aim_lt (op : Nat) (h : op < 128) (r : AimF) : encAim op r < 2 ^ 32 := by
  have := guard_le r.g
  have := b2n_le r.wb
  have := r.d.isLt
  have := src_lt r.a
  have := r.imm.isLt
  simp only [encAim]
  omega

theorem cmp_lt (op : Nat) (h : op < 128) (r : CmpF) : encCmp op r < 2 ^ 32 := by
  have := guard_le r.g
  have := cond_lt r.cond
  have := r.pd.isLt
  have := src_lt r.a
  have := src_lt r.b
  simp only [encCmp]
  omega

theorem prd_lt (op : Nat) (h : op < 128) (r : PrdF) : encPrd op r < 2 ^ 32 := by
  have := guard_le r.g
  have := r.pd.isLt
  have := r.pa.isLt
  have := r.pb.isLt
  simp only [encPrd]
  omega

theorem prdU_lt (op : Nat) (h : op < 128) (r : PrdU) : encPrdU op r < 2 ^ 32 := by
  have := guard_le r.g
  have := r.pd.isLt
  have := r.pa.isLt
  simp only [encPrdU]
  omega

theorem slp_lt (op : Nat) (h : op < 128) (r : SlpF) : encSlp op r < 2 ^ 32 := by
  have := guard_le r.g
  have := r.ps.isLt
  have := r.d.isLt
  have := r.a.isLt
  have := r.b.isLt
  simp only [encSlp]
  omega

theorem sys_lt (op : Nat) (h : op < 128) (r : SysF) : encSys op r < 2 ^ 32 := by
  have := guard_le r.g
  have := r.reg.isLt
  have := r.sr.isLt
  simp only [encSys]
  omega

theorem syn_lt (op : Nat) (h : op < 128) (r : SynF) : encSyn op r < 2 ^ 32 := by
  have := guard_le r.g
  have := r.reg.isLt
  have := r.base.isLt
  have := scope_lt r.scope
  have := b2n_le r.dbl
  have := r.off.isLt
  simp only [encSyn]
  omega

theorem atm_lt (op : Nat) (h : op < 128) (r : AtmF) : encAtm op r < 2 ^ 32 := by
  have := guard_le r.g
  have := r.reg.isLt
  have := r.base.isLt
  have := scope_lt r.scope
  have := order_lt r.ord
  have := b2n_le r.dbl
  simp only [encAtm]
  omega

theorem ord_lt (op : Nat) (h : op < 128) (r : OrdF) : encOrd op r < 2 ^ 32 := by
  have := guard_le r.g
  have := scope_lt r.scope
  simp only [encOrd]
  omega

theorem vec_lt (op : Nat) (h : op < 128) (r : VecF) : encVec op r < 2 ^ 32 := by
  have := guard_le r.g
  have := vop_lt r.d
  have := vop_lt r.a
  have := vop_lt r.b
  have := elem_lt r.t
  simp only [encVec, encVecW]
  omega

theorem vecU_lt (op : Nat) (h : op < 128) (r : VecU) : encVecU op r < 2 ^ 32 := by
  have := guard_le r.g
  have := vop_lt r.d
  have := vop_lt r.a
  have := elem_lt r.t
  simp only [encVecU, encVecW]
  omega

theorem vecL_lt (op : Nat) (h : op < 128) (r : VecL) : encVecL op r < 2 ^ 32 := by
  have := guard_le r.g
  have := vop_lt r.d
  have := vop_lt r.a
  have := vop_lt r.b
  simp only [encVecL, encVecW]
  omega

theorem vecQ_lt (op : Nat) (h : op < 128) (r : VecQ) : encVecQ op r < 2 ^ 32 := by
  have := guard_le r.g
  have := vop_lt r.d
  have := vop_lt r.a
  have := r.b.isLt
  have := blk_lt r.fmt
  simp only [encVecQ, encVecW]
  omega

theorem vcm_lt (op : Nat) (h : op < 128) (r : VcmF) : encVcm op r < 2 ^ 32 := by
  have := guard_le r.g
  have := vCond_lt r.cond
  have := r.kd.isLt
  have := vop_lt r.a
  have := vop_lt r.b
  have := elem_lt r.t
  simp only [encVcm]
  omega

theorem vsc_lt (op : Nat) (h : op < 128) (r : VscF) : encVsc op r < 2 ^ 32 := by
  have := guard_le r.g
  have := vop_lt r.d
  have := src_lt r.src
  have := elem_lt r.t
  simp only [encVsc]
  omega

theorem vmx_lt (op : Nat) (h : op < 128) (r : VmxF) : encVmx op r < 2 ^ 32 := by
  have := guard_le r.g
  have := vop_lt r.v
  have := mOp_lt r.m
  have := r.idx.isLt
  simp only [encVmx]
  omega

theorem xrl_lt (op : Nat) (h : op < 128) (r : XrlF) : encXrl op r < 2 ^ 32 := by
  have := guard_le r.g
  have := vop_lt r.v
  have := b2n_le r.west
  have := r.tk.isLt
  simp only [encXrl]
  omega

theorem mem_lt (op : Nat) (h : op < 128) (g : Guard) (wb : Bool) (reg base ac : Nat) (off : BitVec 6) (h1 : reg < 64) (h2 : base < 64)
    (h3 : ac < 4) : encMem op g wb reg base ac off < 2 ^ 32 := by
  have := guard_le g
  have := b2n_le wb
  have := off.isLt
  simp only [encMem]
  omega

theorem vecW_lt (op : Nat) (h : op < 128) (g : Guard) (d a : VOp) (b t : Nat) (h1 : b < 64) (h2 : t < 8) :
    encVecW op g d a b t < 2 ^ 32 := by
  have := guard_le g
  have := vop_lt d
  have := vop_lt a
  simp only [encVecW]
  omega

theorem til_lt (op : Nat) (h : op < 128) (g : Guard) (a b : Src) (ctl : Nat) (h1 : ctl < 128) : encTil op g a b ctl < 2 ^ 32 := by
  have := guard_le g
  have := src_lt a
  have := src_lt b
  simp only [encTil]
  omega

theorem hdl_lt (op : Nat) (h : op < 128) (g : Guard) (x : Fin 256) (rest : Nat) (h1 : rest < 2 ^ 13) : encHdl op g x rest < 2 ^ 32 := by
  have := guard_le g
  have := x.isLt
  simp only [encHdl]
  omega

theorem imt_lt (op : Nat) (h : op < 128) (g : Guard) (imm : Nat) (h1 : imm < 2 ^ 21) : encImt op g imm < 2 ^ 32 := by
  have := guard_le g
  simp only [encImt]
  omega

theorem csx_lt (r : CsxF) : encCsx r < 2 ^ 32 := by
  have := guard_le r.g
  have := b2n_le r.dbl
  have := b2n_le r.acqFail
  have := order_lt r.succ
  have := scope_lt r.scope
  have := r.reg.isLt
  have := r.base.isLt
  have := r.new.isLt
  simp only [encCsx]
  omega

theorem vcv_lt (r : VcvF) : encVcv r < 2 ^ 32 := by
  have := guard_le r.g
  have := rMode_lt r.rm
  have := cvt_lt r.tgt
  have := cvt_lt r.frm
  have := r.vd.isLt
  have := r.vs.isLt
  have := r.part.isLt
  simp only [encVcv]
  omega

theorem nop (slot : Fin 7) (g : Guard) : Statement (.nop slot g) :=
  ⟨rfl, by
    intro _ h
    obtain rfl := Option.some.inj h
    have := guard_le g
    omega⟩

theorem add (sl : ScalarSlot) (r : RegF) : Statement (.add sl r) :=
  ⟨rfl, fun _ h => Option.some.inj h ▸ regF_lt 1 (by decide) r⟩

theorem sub (sl : ScalarSlot) (r : RegF) : Statement (.sub sl r) :=
  ⟨rfl, fun _ h => Option.some.inj h ▸ regF_lt 2 (by decide) r⟩

theorem addi (sl : ScalarSlot) (r : AimF) : Statement (.addi sl r) :=
  ⟨rfl, fun _ h => Option.some.inj h ▸ aim_lt 3 (by decide) r⟩

theorem mul (r : RegF) : Statement (.mul r) :=
  ⟨rfl, fun _ h => Option.some.inj h ▸ regF_lt 4 (by decide) r⟩

theorem mulh (r : RegF) : Statement (.mulh r) :=
  ⟨rfl, fun _ h => Option.some.inj h ▸ regF_lt 5 (by decide) r⟩

theorem div (r : RegF) : Statement (.div r) :=
  ⟨rfl, fun _ h => Option.some.inj h ▸ regF_lt 6 (by decide) r⟩

theorem divu (r : RegF) : Statement (.divu r) :=
  ⟨rfl, fun _ h => Option.some.inj h ▸ regF_lt 7 (by decide) r⟩

theorem rem (r : RegF) : Statement (.rem r) :=
  ⟨rfl, fun _ h => Option.some.inj h ▸ regF_lt 8 (by decide) r⟩

theorem remu (r : RegF) : Statement (.remu r) :=
  ⟨rfl, fun _ h => Option.some.inj h ▸ regF_lt 9 (by decide) r⟩

theorem and (sl : ScalarSlot) (r : RegF) : Statement (.and sl r) :=
  ⟨rfl, fun _ h => Option.some.inj h ▸ regF_lt 10 (by decide) r⟩

theorem or (sl : ScalarSlot) (r : RegF) : Statement (.or sl r) :=
  ⟨rfl, fun _ h => Option.some.inj h ▸ regF_lt 11 (by decide) r⟩

theorem xor (sl : ScalarSlot) (r : RegF) : Statement (.xor sl r) :=
  ⟨rfl, fun _ h => Option.some.inj h ▸ regF_lt 12 (by decide) r⟩

theorem andn (sl : ScalarSlot) (r : RegF) : Statement (.andn sl r) :=
  ⟨rfl, fun _ h => Option.some.inj h ▸ regF_lt 13 (by decide) r⟩

theorem shl (sl : ScalarSlot) (r : RegF) : Statement (.shl sl r) :=
  ⟨rfl, fun _ h => Option.some.inj h ▸ regF_lt 14 (by decide) r⟩

theorem shr (sl : ScalarSlot) (r : RegF) : Statement (.shr sl r) :=
  ⟨rfl, fun _ h => Option.some.inj h ▸ regF_lt 15 (by decide) r⟩

theorem sar (sl : ScalarSlot) (r : RegF) : Statement (.sar sl r) :=
  ⟨rfl, fun _ h => Option.some.inj h ▸ regF_lt 16 (by decide) r⟩

theorem rot (sl : ScalarSlot) (r : RegF) : Statement (.rot sl r) :=
  ⟨rfl, fun _ h => Option.some.inj h ▸ regF_lt 17 (by decide) r⟩

theorem min (sl : ScalarSlot) (r : RegF) : Statement (.min sl r) :=
  ⟨rfl, fun _ h => Option.some.inj h ▸ regF_lt 18 (by decide) r⟩

theorem max (sl : ScalarSlot) (r : RegF) : Statement (.max sl r) :=
  ⟨rfl, fun _ h => Option.some.inj h ▸ regF_lt 19 (by decide) r⟩

theorem minu (sl : ScalarSlot) (r : RegF) : Statement (.minu sl r) :=
  ⟨rfl, fun _ h => Option.some.inj h ▸ regF_lt 20 (by decide) r⟩

theorem maxu (sl : ScalarSlot) (r : RegF) : Statement (.maxu sl r) :=
  ⟨rfl, fun _ h => Option.some.inj h ▸ regF_lt 21 (by decide) r⟩

theorem cmp (sl : ScalarSlot) (r : CmpF) : Statement (.cmp sl r) :=
  ⟨rfl, fun _ h => Option.some.inj h ▸ cmp_lt 22 (by decide) r⟩

theorem sel (sl : ScalarSlot) (r : SlpF) : Statement (.sel sl r) :=
  ⟨rfl, fun _ h => Option.some.inj h ▸ slp_lt 23 (by decide) r⟩

theorem clz (sl : ScalarSlot) (r : RegU) : Statement (.clz sl r) :=
  ⟨rfl, fun _ h => Option.some.inj h ▸ regU_lt 24 (by decide) r⟩

theorem popc (sl : ScalarSlot) (r : RegU) : Statement (.popc sl r) :=
  ⟨rfl, fun _ h => Option.some.inj h ▸ regU_lt 25 (by decide) r⟩

theorem movi (sl : ScalarSlot) (r : WimF) : Statement (.movi sl r) :=
  ⟨rfl, fun _ h => Option.some.inj h ▸ wim_lt 26 (by decide) r⟩

theorem movh (sl : ScalarSlot) (r : WimF) : Statement (.movh sl r) :=
  ⟨rfl, fun _ h => Option.some.inj h ▸ wim_lt 27 (by decide) r⟩

theorem bfx (sl : ScalarSlot) (r : RegF) : Statement (.bfx sl r) :=
  ⟨rfl, fun _ h => Option.some.inj h ▸ regF_lt 28 (by decide) r⟩

theorem bfi (sl : ScalarSlot) (r : RegF) : Statement (.bfi sl r) :=
  ⟨rfl, fun _ h => Option.some.inj h ▸ regF_lt 29 (by decide) r⟩

theorem mada (r : RegF) : Statement (.mada r) :=
  ⟨rfl, fun _ h => Option.some.inj h ▸ regF_lt 30 (by decide) r⟩

theorem pand (sl : ScalarSlot) (r : PrdF) : Statement (.pand sl r) :=
  ⟨rfl, fun _ h => Option.some.inj h ▸ prd_lt 32 (by decide) r⟩

theorem por (sl : ScalarSlot) (r : PrdF) : Statement (.por sl r) :=
  ⟨rfl, fun _ h => Option.some.inj h ▸ prd_lt 33 (by decide) r⟩

theorem pxor (sl : ScalarSlot) (r : PrdF) : Statement (.pxor sl r) :=
  ⟨rfl, fun _ h => Option.some.inj h ▸ prd_lt 34 (by decide) r⟩

theorem pnot (sl : ScalarSlot) (r : PrdU) : Statement (.pnot sl r) :=
  ⟨rfl, fun _ h => Option.some.inj h ▸ prdU_lt 35 (by decide) r⟩

theorem srd (r : SysF) : Statement (.srd r) :=
  ⟨rfl, fun _ h => Option.some.inj h ▸ sys_lt 48 (by decide) r⟩

theorem swr (r : SysF) : Statement (.swr r) :=
  ⟨rfl, fun _ h => Option.some.inj h ▸ sys_lt 49 (by decide) r⟩

theorem lds (r : MemL) : Statement (.lds r) :=
  ⟨rfl, fun _ h => Option.some.inj h ▸ mem_lt _ (by have := loadW_lt r.w; omega) _ _ _ _ _ _ (by omega) (by omega) (by omega)⟩

theorem sts (r : MemS) : Statement (.sts r) :=
  ⟨rfl, fun _ h => Option.some.inj h ▸ mem_lt _ (by have := storeW_lt r.w; omega) _ _ _ _ _ _ (by omega) (by omega) (by omega)⟩

theorem ldv (r : MemVL) : Statement (.ldv r) :=
  ⟨rfl, fun _ h => Option.some.inj h ▸ mem_lt _ (by decide) _ _ _ _ _ _ (by omega) (by omega) (by omega)⟩

theorem stv (r : MemVS) : Statement (.stv r) :=
  ⟨rfl, fun _ h => Option.some.inj h ▸ mem_lt _ (by decide) _ _ _ _ _ _ (by omega) (by omega) (by omega)⟩

theorem ld (r : MemL) : Statement (.ld r) :=
  ⟨rfl, fun _ h => Option.some.inj h ▸ mem_lt _ (by have := loadW_lt r.w; omega) _ _ _ _ _ _ (by omega) (by omega) (by omega)⟩

theorem st (r : MemS) : Statement (.st r) :=
  ⟨rfl, fun _ h => Option.some.inj h ▸ mem_lt _ (by have := storeW_lt r.w; omega) _ _ _ _ _ _ (by omega) (by omega) (by omega)⟩

theorem lda (r : SynF) : Statement (.lda r) :=
  ⟨rfl, fun _ h => Option.some.inj h ▸ syn_lt 32 (by decide) r⟩

theorem stl (r : SynF) : Statement (.stl r) :=
  ⟨rfl, fun _ h => Option.some.inj h ▸ syn_lt 33 (by decide) r⟩

theorem atom (r : AtmF) : Statement (.atom r) :=
  ⟨rfl, by
    intro _ h
    obtain rfl := Option.some.inj h
    have := atom_lt r.op
    exact atm_lt _ (by omega) r⟩

theorem cas (r : CsxF) : Statement (.cas r) :=
  ⟨rfl, by
    intro _ h
    obtain rfl := Option.some.inj h
    exact csx_lt r⟩

theorem phase (r : OrdF) : Statement (.phase r) :=
  ⟨rfl, fun _ h => Option.some.inj h ▸ ord_lt 64 (by decide) r⟩

theorem fence (r : OrdF) : Statement (.fence r) :=
  ⟨rfl, fun _ h => Option.some.inj h ▸ ord_lt 65 (by decide) r⟩

theorem tagl (r : RegU) : Statement (.tagl r) :=
  ⟨rfl, fun _ h => Option.some.inj h ▸ regU_lt 72 (by decide) r⟩

theorem tagi (r : RegN) : Statement (.tagi r) :=
  ⟨rfl, fun _ h => Option.some.inj h ▸ regN_lt 73 (by decide) r⟩

theorem tagx (r : RegO) : Statement (.tagx r) :=
  ⟨rfl, fun _ h => Option.some.inj h ▸ regO_lt 74 (by decide) r⟩

theorem rgwb (r : RegO) : Statement (.rgwb r) :=
  ⟨rfl, fun _ h => Option.some.inj h ▸ regO_lt 75 (by decide) r⟩

theorem vadd (r : VecF) : Statement (.vadd r) :=
  ⟨rfl, fun _ h => Option.some.inj h ▸ vec_lt 1 (by decide) r⟩

theorem vsub (r : VecF) : Statement (.vsub r) :=
  ⟨rfl, fun _ h => Option.some.inj h ▸ vec_lt 2 (by decide) r⟩

theorem vmul (r : VecF) : Statement (.vmul r) :=
  ⟨rfl, fun _ h => Option.some.inj h ▸ vec_lt 3 (by decide) r⟩

theorem vfma (r : VecF) : Statement (.vfma r) :=
  ⟨rfl, fun _ h => Option.some.inj h ▸ vec_lt 4 (by decide) r⟩

theorem vmax (r : VecF) : Statement (.vmax r) :=
  ⟨rfl, fun _ h => Option.some.inj h ▸ vec_lt 5 (by decide) r⟩

theorem vmin (r : VecF) : Statement (.vmin r) :=
  ⟨rfl, fun _ h => Option.some.inj h ▸ vec_lt 6 (by decide) r⟩

theorem vmaxu (r : VecF) : Statement (.vmaxu r) :=
  ⟨rfl, fun _ h => Option.some.inj h ▸ vec_lt 7 (by decide) r⟩

theorem vminu (r : VecF) : Statement (.vminu r) :=
  ⟨rfl, fun _ h => Option.some.inj h ▸ vec_lt 8 (by decide) r⟩

theorem vabs (r : VecU) : Statement (.vabs r) :=
  ⟨rfl, fun _ h => Option.some.inj h ▸ vecU_lt 9 (by decide) r⟩

theorem vneg (r : VecU) : Statement (.vneg r) :=
  ⟨rfl, fun _ h => Option.some.inj h ▸ vecU_lt 10 (by decide) r⟩

theorem vcmp (r : VcmF) : Statement (.vcmp r) :=
  ⟨rfl, fun _ h => Option.some.inj h ▸ vcm_lt 16 (by decide) r⟩

theorem vcmpu (r : VcmF) : Statement (.vcmpu r) :=
  ⟨rfl, fun _ h => Option.some.inj h ▸ vcm_lt 17 (by decide) r⟩

theorem vsel (r : VecS) : Statement (.vsel r) :=
  ⟨rfl, by
    intro _ h
    obtain rfl := Option.some.inj h
    have := vop_lt r.b
    have := r.m.isLt
    exact vecW_lt _ (by decide) _ _ _ _ _ (by omega) (by omega)⟩

theorem vand (r : VecL) : Statement (.vand r) :=
  ⟨rfl, fun _ h => Option.some.inj h ▸ vecL_lt 24 (by decide) r⟩

theorem vor (r : VecL) : Statement (.vor r) :=
  ⟨rfl, fun _ h => Option.some.inj h ▸ vecL_lt 25 (by decide) r⟩

theorem vxor (r : VecL) : Statement (.vxor r) :=
  ⟨rfl, fun _ h => Option.some.inj h ▸ vecL_lt 26 (by decide) r⟩

theorem vshl (r : VecF) : Statement (.vshl r) :=
  ⟨rfl, fun _ h => Option.some.inj h ▸ vec_lt 27 (by decide) r⟩

theorem vshr (r : VecF) : Statement (.vshr r) :=
  ⟨rfl, fun _ h => Option.some.inj h ▸ vec_lt 28 (by decide) r⟩

theorem vsar (r : VecF) : Statement (.vsar r) :=
  ⟨rfl, fun _ h => Option.some.inj h ▸ vec_lt 29 (by decide) r⟩

theorem vcvt (r : VcvF) : Statement (.vcvt r) :=
  ⟨rfl, by
    intro _ h
    obtain rfl := Option.some.inj h
    exact vcv_lt r⟩

theorem vqnt (r : VecQ) : Statement (.vqnt r) :=
  ⟨rfl, fun _ h => Option.some.inj h ▸ vecQ_lt 40 (by decide) r⟩

theorem vscl (r : VecQ) : Statement (.vscl r) :=
  ⟨rfl, fun _ h => Option.some.inj h ▸ vecQ_lt 41 (by decide) r⟩

theorem vexp2 (r : VecU) : Statement (.vexp2 r) :=
  ⟨rfl, fun _ h => Option.some.inj h ▸ vecU_lt 48 (by decide) r⟩

theorem vrcp (r : VecU) : Statement (.vrcp r) :=
  ⟨rfl, fun _ h => Option.some.inj h ▸ vecU_lt 49 (by decide) r⟩

theorem vrsq (r : VecU) : Statement (.vrsq r) :=
  ⟨rfl, fun _ h => Option.some.inj h ▸ vecU_lt 50 (by decide) r⟩

theorem vred (r : VecR) : Statement (.vred r) :=
  ⟨rfl, by
    intro _ h
    obtain rfl := Option.some.inj h
    have := red_lt r.op
    have := elem_lt r.t
    exact vecW_lt _ (by decide) _ _ _ _ _ (by omega) (by omega)⟩

theorem vperm (r : VecF) : Statement (.vperm r) :=
  ⟨rfl, fun _ h => Option.some.inj h ▸ vec_lt 57 (by decide) r⟩

theorem vbc (r : VscF) : Statement (.vbc r) :=
  ⟨rfl, fun _ h => Option.some.inj h ▸ vsc_lt 58 (by decide) r⟩

theorem vidx (r : VecU) : Statement (.vidx r) :=
  ⟨rfl, fun _ h => Option.some.inj h ▸ vecU_lt 59 (by decide) r⟩

theorem vmrd (r : VmxF) : Statement (.vmrd r) :=
  ⟨rfl, fun _ h => Option.some.inj h ▸ vmx_lt 64 (by decide) r⟩

theorem vmwr (r : VmxF) : Statement (.vmwr r) :=
  ⟨rfl, fun _ h => Option.some.inj h ▸ vmx_lt 65 (by decide) r⟩

theorem mcfg (r : McfgF) : Statement (.mcfg r) :=
  ⟨rfl, by
    intro _ h
    obtain rfl := Option.some.inj h
    have := b2n_le r.pair
    have := r.reg.isLt
    exact til_lt _ (by decide) _ _ _ _ (by omega)⟩

theorem mld (r : TilM) : Statement (.mld r) :=
  ⟨rfl, by
    intro _ h
    obtain rfl := Option.some.inj h
    have := mOp_lt r.m
    exact til_lt _ (by decide) _ _ _ _ (by omega)⟩

theorem mst (r : TilM) : Statement (.mst r) :=
  ⟨rfl, by
    intro _ h
    obtain rfl := Option.some.inj h
    have := mOp_lt r.m
    exact til_lt _ (by decide) _ _ _ _ (by omega)⟩

theorem mstPs (r : TilP) : Statement (.mstPs r) :=
  ⟨rfl, by
    intro _ h
    obtain rfl := Option.some.inj h
    have := b2n_le r.ps
    exact til_lt _ (by decide) _ _ _ _ (by omega)⟩

theorem mz (r : MzM) : Statement (.mz r) :=
  ⟨rfl, by
    intro _ h
    obtain rfl := Option.some.inj h
    have := r.m.isLt
    exact til_lt _ (by decide) _ _ _ _ (by omega)⟩

theorem mzPs (r : MzP) : Statement (.mzPs r) :=
  ⟨rfl, by
    intro _ h
    obtain rfl := Option.some.inj h
    have := b2n_le r.ps
    exact til_lt _ (by decide) _ _ _ _ (by omega)⟩

theorem mta (r : MtaF) : Statement (.mta r) :=
  ⟨rfl, by
    intro _ h
    obtain rfl := Option.some.inj h
    have := b2n_le r.asp
    have := b2n_le r.bsp
    have := b2n_le r.acc
    have := b2n_le r.ps
    have := r.qsel.isLt
    exact til_lt _ (by decide) _ _ _ _ (by omega)⟩

theorem mtg (r : MtgF) : Statement (.mtg r) :=
  ⟨rfl, by
    intro _ h
    obtain rfl := Option.some.inj h
    have := b2n_le r.asp
    have := b2n_le r.ps
    have := r.qsel.isLt
    exact til_lt _ (by decide) _ _ _ _ (by omega)⟩

theorem msca (r : MscaF) : Statement (.msca r) :=
  ⟨rfl, by
    intro _ h
    obtain rfl := Option.some.inj h
    have := b2n_le r.ps
    have := b2n_le r.nosc
    have := r.ssel.isLt
    have := r.c.isLt
    exact til_lt _ (by decide) _ _ _ _ (by omega)⟩

theorem mwt (r : MwtF) : Statement (.mwt r) :=
  ⟨rfl, by
    intro _ h
    obtain rfl := Option.some.inj h
    have := r.n.isLt
    exact til_lt _ (by decide) _ _ _ _ (by omega)⟩

theorem mcnt (r : RegU) : Statement (.mcnt r) :=
  ⟨rfl, fun _ h => Option.some.inj h ▸ regU_lt 9 (by decide) r⟩

theorem copy (r : RegN) : Statement (.copy r) :=
  ⟨rfl, fun _ h => Option.some.inj h ▸ regN_lt 1 (by decide) r⟩

theorem copyg (r : RegN) : Statement (.copyg r) :=
  ⟨rfl, fun _ h => Option.some.inj h ▸ regN_lt 2 (by decide) r⟩

theorem copys (r : RegN) : Statement (.copys r) :=
  ⟨rfl, fun _ h => Option.some.inj h ▸ regN_lt 3 (by decide) r⟩

theorem copyr (r : RegN) : Statement (.copyr r) :=
  ⟨rfl, fun _ h => Option.some.inj h ▸ regN_lt 4 (by decide) r⟩

theorem fbind (r : FedF) : Statement (.fbind r) :=
  ⟨rfl, by
    intro _ h
    obtain rfl := Option.some.inj h
    have := src_lt r.a
    have := src_lt r.b
    have := r.f.isLt
    have := guard_le r.g
    omega⟩

theorem fdrop (r : FdropF) : Statement (.fdrop r) :=
  ⟨rfl, by
    intro _ h
    obtain rfl := Option.some.inj h
    have := r.f.isLt
    have := guard_le r.g
    omega⟩

theorem hset (r : HsetF) : Statement (.hset r) :=
  ⟨rfl, by
    intro _ h
    obtain rfl := Option.some.inj h
    have := src_lt r.n
    have := b2n_le r.drain
    exact hdl_lt _ (by decide) _ _ _ (by omega)⟩

theorem hwait (r : HwaitF) : Statement (.hwait r) :=
  ⟨rfl, by
    intro _ h
    obtain rfl := Option.some.inj h
    have := hState_lt r.st
    have := b2n_le r.ph
    exact hdl_lt _ (by decide) _ _ _ (by omega)⟩

theorem hrel (r : HrelF) : Statement (.hrel r) :=
  ⟨rfl, by
    intro _ h
    obtain rfl := Option.some.inj h
    exact hdl_lt _ (by decide) _ _ _ (by omega)⟩

theorem qfence (r : QmkF) : Statement (.qfence r) :=
  ⟨rfl, by
    intro _ h
    obtain rfl := Option.some.inj h
    have := r.qm.isLt
    exact imt_lt _ (by decide) _ _ (by omega)⟩

theorem tenq (r : RegF) : Statement (.tenq r) :=
  ⟨rfl, fun _ h => Option.some.inj h ▸ regF_lt 25 (by decide) r⟩

theorem tsig (r : RegN) : Statement (.tsig r) :=
  ⟨rfl, fun _ h => Option.some.inj h ▸ regN_lt 26 (by decide) r⟩

theorem bar (r : BarF) : Statement (.bar r) :=
  ⟨rfl, by
    intro _ h
    obtain rfl := Option.some.inj h
    have := r.b.isLt
    exact imt_lt _ (by decide) _ _ (by omega)⟩

theorem bara (r : BarF) : Statement (.bara r) :=
  ⟨rfl, by
    intro _ h
    obtain rfl := Option.some.inj h
    have := r.b.isLt
    exact imt_lt _ (by decide) _ _ (by omega)⟩

theorem barw (r : BarwF) : Statement (.barw r) :=
  ⟨rfl, by
    intro _ h
    obtain rfl := Option.some.inj h
    have := b2n_le r.ph
    have := r.b.isLt
    exact imt_lt _ (by decide) _ _ (by omega)⟩

theorem pause (r : ImtF) : Statement (.pause r) :=
  ⟨rfl, by
    intro _ h
    obtain rfl := Option.some.inj h
    have := r.imm.isLt
    exact imt_lt _ (by decide) _ _ (by omega)⟩

theorem role (r : RegU) : Statement (.role r) :=
  ⟨rfl, fun _ h => Option.some.inj h ▸ regU_lt 40 (by decide) r⟩

theorem xph (r : BarF) : Statement (.xph r) :=
  ⟨rfl, by
    intro _ h
    obtain rfl := Option.some.inj h
    have := r.b.isLt
    exact imt_lt _ (by decide) _ _ (by omega)⟩

theorem xsnd (r : XrlF) : Statement (.xsnd r) :=
  ⟨rfl, fun _ h => Option.some.inj h ▸ xrl_lt 42 (by decide) r⟩

theorem xsel (r : XrlF) : Statement (.xsel r) :=
  ⟨rfl, fun _ h => Option.some.inj h ▸ xrl_lt 43 (by decide) r⟩

theorem cst (r : RegN) : Statement (.cst r) :=
  ⟨rfl, fun _ h => Option.some.inj h ▸ regN_lt 48 (by decide) r⟩

theorem cld (r : RegU) : Statement (.cld r) :=
  ⟨rfl, fun _ h => Option.some.inj h ▸ regU_lt 49 (by decide) r⟩

theorem cxch (r : RegF) : Statement (.cxch r) :=
  ⟨rfl, fun _ h => Option.some.inj h ▸ regF_lt 50 (by decide) r⟩

theorem pub (r : RegU) : Statement (.pub r) :=
  ⟨rfl, fun _ h => Option.some.inj h ▸ regU_lt 56 (by decide) r⟩

theorem land (r : RegF) : Statement (.land r) :=
  ⟨rfl, fun _ h => Option.some.inj h ▸ regF_lt 57 (by decide) r⟩

theorem decl (r : RegO) : Statement (.decl r) :=
  ⟨rfl, fun _ h => Option.some.inj h ▸ regO_lt 58 (by decide) r⟩

theorem recl (r : RegO) : Statement (.recl r) :=
  ⟨rfl, fun _ h => Option.some.inj h ▸ regO_lt 59 (by decide) r⟩

theorem nstat (r : RegU) : Statement (.nstat r) :=
  ⟨rfl, fun _ h => Option.some.inj h ▸ regU_lt 60 (by decide) r⟩

theorem cnt (r : RegU) : Statement (.cnt r) :=
  ⟨rfl, fun _ h => Option.some.inj h ▸ regU_lt 64 (by decide) r⟩

theorem br (r : JmpF) : Statement (.br r) :=
  ⟨rfl, by
    intro _ h
    obtain rfl := Option.some.inj h
    have := r.off.isLt
    exact imt_lt _ (by decide) _ _ (by omega)⟩

theorem brp (r : IndF) : Statement (.brp r) :=
  ⟨rfl, by
    intro _ h
    obtain rfl := Option.some.inj h
    have := src_lt r.src
    exact imt_lt _ (by decide) _ _ (by omega)⟩

theorem call (r : JmpF) : Statement (.call r) :=
  ⟨rfl, by
    intro _ h
    obtain rfl := Option.some.inj h
    have := r.off.isLt
    exact imt_lt _ (by decide) _ _ (by omega)⟩

theorem ret (r : IndF) : Statement (.ret r) :=
  ⟨rfl, by
    intro _ h
    obtain rfl := Option.some.inj h
    have := src_lt r.src
    exact imt_lt _ (by decide) _ _ (by omega)⟩

theorem loop (r : LpfF) : Statement (.loop r) :=
  ⟨rfl, by
    intro _ h
    obtain rfl := Option.some.inj h
    have := src_lt r.cnt
    have := r.fin.isLt
    exact imt_lt _ (by decide) _ _ (by omega)⟩

theorem lexit (g : Guard) : Statement (.lexit g) :=
  ⟨rfl, by
    intro _ h
    obtain rfl := Option.some.inj h
    exact imt_lt _ (by decide) _ _ (by omega)⟩

theorem lix (r : LxfF) : Statement (.lix r) :=
  ⟨rfl, by
    intro _ h
    obtain rfl := Option.some.inj h
    have := r.d.isLt
    have := r.lv.isLt
    have := guard_le r.g
    omega⟩

theorem endk (g : Guard) : Statement (.endk g) :=
  ⟨rfl, by
    intro _ h
    obtain rfl := Option.some.inj h
    exact imt_lt _ (by decide) _ _ (by omega)⟩

theorem trap (r : ImtF) : Statement (.trap r) :=
  ⟨rfl, by
    intro _ h
    obtain rfl := Option.some.inj h
    have := r.imm.isLt
    exact imt_lt _ (by decide) _ _ (by omega)⟩

theorem eret (g : Guard) : Statement (.eret g) :=
  ⟨rfl, by
    intro _ h
    obtain rfl := Option.some.inj h
    exact imt_lt _ (by decide) _ _ (by omega)⟩

theorem bundleIssue (k : CoreKey) : Statement (.bundleIssue k) :=
  ⟨rfl, nofun⟩

theorem resultLands (k : CoreKey) : Statement (.resultLands k) :=
  ⟨rfl, nofun⟩

theorem asyncTrapTaken (k : CoreKey) : Statement (.asyncTrapTaken k) :=
  ⟨rfl, nofun⟩

theorem bringUpStep : Statement .bringUpStep :=
  ⟨rfl, nofun⟩

theorem plyctlTargetP0 (p : Fin 12) : Statement (.plyctlTargetP0 p) :=
  ⟨rfl, nofun⟩

theorem plyctlTargetP1 (p : Fin 12) : Statement (.plyctlTargetP1 p) :=
  ⟨rfl, nofun⟩

theorem plyctlTargetP2 (p : Fin 12) : Statement (.plyctlTargetP2 p) :=
  ⟨rfl, nofun⟩

theorem plyctlTargetP3 (p : Fin 12) : Statement (.plyctlTargetP3 p) :=
  ⟨rfl, nofun⟩

theorem plyTransitionDone (p : Fin 12) : Statement (.plyTransitionDone p) :=
  ⟨rfl, nofun⟩

theorem autoP1Entry (p : Fin 12) : Statement (.autoP1Entry p) :=
  ⟨rfl, nofun⟩

theorem powerShareLimit (p : Fin 24) (exceeds : Bool) : Statement (.powerShareLimit p exceeds) :=
  ⟨rfl, nofun⟩

theorem activityForecast : Statement .activityForecast :=
  ⟨rfl, nofun⟩

theorem patrolScrub (at_ : ScrubAt) (bad : Bool) : Statement (.patrolScrub at_ bad) :=
  ⟨rfl, nofun⟩

theorem placementDecision : Statement .placementDecision :=
  ⟨rfl, nofun⟩

theorem gangStart (g : Nat) : Statement (.gangStart g) :=
  ⟨rfl, nofun⟩

theorem graceExpiry (g : Nat) : Statement (.graceExpiry g) :=
  ⟨rfl, nofun⟩

theorem gangSave (g : Nat) : Statement (.gangSave g) :=
  ⟨rfl, nofun⟩

theorem saveComplete (g : Nat) : Statement (.saveComplete g) :=
  ⟨rfl, nofun⟩

theorem endDrainComplete (k : CoreKey) : Statement (.endDrainComplete k) :=
  ⟨rfl, nofun⟩

theorem ctxctlResume (k : CoreKey) (x : Bool) : Statement (.ctxctlResume k x) :=
  ⟨rfl, nofun⟩

theorem ctxctlPark (k : CoreKey) (x : Bool) : Statement (.ctxctlPark k x) :=
  ⟨rfl, nofun⟩

theorem ctxctlPreempt (k : CoreKey) (x : Bool) : Statement (.ctxctlPreempt k x) :=
  ⟨rfl, nofun⟩

theorem ctxctlKill (k : CoreKey) (x : Bool) : Statement (.ctxctlKill k x) :=
  ⟨rfl, nofun⟩

theorem taskComplete (p : Fin 24) (serial : Nat) : Statement (.taskComplete p serial) :=
  ⟨rfl, nofun⟩

theorem launchComplete (p : Fin 24) (id : Nat) : Statement (.launchComplete p id) :=
  ⟨rfl, nofun⟩

theorem launchDoorbell (p : Fin 24) (gva : Word) (whole : Bool) : Statement (.launchDoorbell p gva whole) :=
  ⟨rfl, nofun⟩

theorem launchDescriptor (p : Fin 24) : Statement (.launchDescriptor p) :=
  ⟨rfl, nofun⟩

theorem taskRecordEntry (p : Fin 24) : Statement (.taskRecordEntry p) :=
  ⟨rfl, nofun⟩

theorem notBeforeReached (p : Fin 24) (serial : Nat) : Statement (.notBeforeReached p serial) :=
  ⟨rfl, nofun⟩

theorem signalAdd (p : Fin 24) (sig : Fin 256) (amt : BitVec 32) (ply : Option (Fin 12)) : Statement (.signalAdd p sig amt ply) :=
  ⟨rfl, nofun⟩

theorem signalWrite (p : Fin 24) (sig : Fin 256) (val : BitVec 32) : Statement (.signalWrite p sig val) :=
  ⟨rfl, nofun⟩

theorem reservation (p : Fin 24) : Statement (.reservation p) :=
  ⟨rfl, nofun⟩

theorem tenqRequest (id : Nat) : Statement (.tenqRequest id) :=
  ⟨rfl, nofun⟩

theorem tenqTimeout (id : Nat) : Statement (.tenqTimeout id) :=
  ⟨rfl, nofun⟩

theorem tenqResult (id : Nat) : Statement (.tenqResult id) :=
  ⟨rfl, nofun⟩

theorem homeSliceApply (id : Nat) : Statement (.homeSliceApply id) :=
  ⟨rfl, nofun⟩

theorem storeAck (id : Nat) : Statement (.storeAck id) :=
  ⟨rfl, nofun⟩

theorem loadReply (id : Nat) : Statement (.loadReply id) :=
  ⟨rfl, nofun⟩

theorem peerAccess (id : Nat) : Statement (.peerAccess id) :=
  ⟨rfl, nofun⟩

theorem hostPostedWrite (fn : Fin 25) (off : Nat) (data : List Byte) : Statement (.hostPostedWrite fn off data) :=
  ⟨rfl, nofun⟩

theorem hostRead (fn : Fin 25) (off : Nat) (n : Nat) : Statement (.hostRead fn off n) :=
  ⟨rfl, nofun⟩

theorem hostWatermarkBeat (late : Bool) : Statement (.hostWatermarkBeat late) :=
  ⟨rfl, nofun⟩

theorem granuleFillComplete (k : CoreKey) (g : Fin 768) : Statement (.granuleFillComplete k g) :=
  ⟨rfl, nofun⟩

theorem tableWalk (k : CoreKey) (page : Nat) : Statement (.tableWalk k page) :=
  ⟨rfl, nofun⟩

theorem walkRetry (k : CoreKey) (page : Nat) : Statement (.walkRetry k page) :=
  ⟨rfl, nofun⟩

theorem mapinvcInvalidatePage (p : Fin 24) : Statement (.mapinvcInvalidatePage p) :=
  ⟨rfl, nofun⟩

theorem mapinvcInvalidateAll (p : Fin 24) : Statement (.mapinvcInvalidateAll p) :=
  ⟨rfl, nofun⟩

theorem mapinvcDrainFlush (p : Fin 24) : Statement (.mapinvcDrainFlush p) :=
  ⟨rfl, nofun⟩

theorem mapinvcDone (p : Fin 24) : Statement (.mapinvcDone p) :=
  ⟨rfl, nofun⟩

theorem faultQueueSet (p : Fin 24) (size : Bool) (val : Word) : Statement (.faultQueueSet p size val) :=
  ⟨rfl, nofun⟩

theorem fqtailWrite (p : Fin 24) (val : Word) : Statement (.fqtailWrite p val) :=
  ⟨rfl, nofun⟩

theorem copyRelease (k : CoreKey) : Statement (.copyRelease k) :=
  ⟨rfl, nofun⟩

theorem copyReadReturn (k : CoreKey) (q : Fin 4) : Statement (.copyReadReturn k q) :=
  ⟨rfl, nofun⟩

theorem copyWriteAck (k : CoreKey) (id : Nat) : Statement (.copyWriteAck k id) :=
  ⟨rfl, nofun⟩

theorem cpyctlResume (k : CoreKey) (q : Fin 4) : Statement (.cpyctlResume k q) :=
  ⟨rfl, nofun⟩

theorem cpyctlAbort (k : CoreKey) (q : Fin 4) : Statement (.cpyctlAbort k q) :=
  ⟨rfl, nofun⟩

theorem streamWindowRead (k : CoreKey) (f : Fin 8) : Statement (.streamWindowRead k f) :=
  ⟨rfl, nofun⟩

theorem streamWindowWrite (k : CoreKey) (f : Fin 8) : Statement (.streamWindowWrite k f) :=
  ⟨rfl, nofun⟩

theorem tileOpStart (k : CoreKey) : Statement (.tileOpStart k) :=
  ⟨rfl, nofun⟩

theorem tileOpComplete (k : CoreKey) : Statement (.tileOpComplete k) :=
  ⟨rfl, nofun⟩

theorem pauseExpiry (k : CoreKey) : Statement (.pauseExpiry k) :=
  ⟨rfl, nofun⟩

theorem barrierArrival (g : Nat) (b : Fin 16) (role : Fin 96) (xph : Bool) : Statement (.barrierArrival g b role xph) :=
  ⟨rfl, nofun⟩

theorem railInjection (id : Nat) (enters : Bool) : Statement (.railInjection id enters) :=
  ⟨rfl, nofun⟩

theorem railCapture (k : CoreKey) : Statement (.railCapture k) :=
  ⟨rfl, nofun⟩

theorem clearingBeatSend : Statement .clearingBeatSend :=
  ⟨rfl, nofun⟩

theorem beatApplied (id : Nat) : Statement (.beatApplied id) :=
  ⟨rfl, nofun⟩

theorem retransmissionRequest (id : Nat) (station : Fin 13) : Statement (.retransmissionRequest id station) :=
  ⟨rfl, nofun⟩

theorem resyncPassStart : Statement .resyncPassStart :=
  ⟨rfl, nofun⟩

theorem resyncComplete : Statement .resyncComplete :=
  ⟨rfl, nofun⟩

theorem planctlCommit : Statement .planctlCommit :=
  ⟨rfl, nofun⟩

theorem planActivate : Statement .planActivate :=
  ⟨rfl, nofun⟩

theorem clallocWrite (p : Fin 24) (val : Word) : Statement (.clallocWrite p val) :=
  ⟨rfl, nofun⟩

theorem noticeArrival (n : Notice) (dst : PortName) (from_ : PortName) : Statement (.noticeArrival n dst from_) :=
  ⟨rfl, nofun⟩

theorem releaseMessage (dst : PortName) (block : BitVec 32) : Statement (.releaseMessage dst block) :=
  ⟨rfl, nofun⟩

theorem abandon (dst : PortName) (block : BitVec 32) (pull : Nat) : Statement (.abandon dst block pull) :=
  ⟨rfl, nofun⟩

theorem blockOverdue (k : CoreKey) (block : BitVec 32) : Statement (.blockOverdue k block) :=
  ⟨rfl, nofun⟩

theorem pubTimeout (k : CoreKey) : Statement (.pubTimeout k) :=
  ⟨rfl, nofun⟩

theorem pullGrant (k : CoreKey) : Statement (.pullGrant k) :=
  ⟨rfl, nofun⟩

theorem deferralExpiry (k : CoreKey) (entry : Fin 512) : Statement (.deferralExpiry k entry) :=
  ⟨rfl, nofun⟩

theorem chunkRequest (k : CoreKey) : Statement (.chunkRequest k) :=
  ⟨rfl, nofun⟩

theorem chunkServe (r : ChunkReq) : Statement (.chunkServe r) :=
  ⟨rfl, nofun⟩

theorem chunkLanded (id : Nat) : Statement (.chunkLanded id) :=
  ⟨rfl, nofun⟩

theorem portEnable (n : Fin 64) : Statement (.portEnable n) :=
  ⟨rfl, nofun⟩

theorem portDisable (n : Fin 64) : Statement (.portDisable n) :=
  ⟨rfl, nofun⟩

theorem portTrained (n : Fin 64) (nbr : Nat) : Statement (.portTrained n nbr) :=
  ⟨rfl, nofun⟩

theorem portDown (n : Fin 64) : Statement (.portDown n) :=
  ⟨rfl, nofun⟩

theorem routeWrite (n : Fin 3541) (val : Word) : Statement (.routeWrite n val) :=
  ⟨rfl, nofun⟩

theorem remoteRequest (r : RemoteReq) : Statement (.remoteRequest r) :=
  ⟨rfl, nofun⟩

theorem remoteTimeout (id : Nat) : Statement (.remoteTimeout id) :=
  ⟨rfl, nofun⟩

theorem combineArrival (port : Fin 60) (stid : BitVec 16) (gva : Word) (dbl : Bool) (v : Word) (m : Combined) : Statement (.combineArrival port stid gva dbl v m) :=
  ⟨rfl, nofun⟩

theorem combineGroupClose (id : Nat) : Statement (.combineGroupClose id) :=
  ⟨rfl, nofun⟩

theorem timeBeat (within : Bool) : Statement (.timeBeat within) :=
  ⟨rfl, nofun⟩

theorem partcmdCreate (p : Fin 24) : Statement (.partcmdCreate p) :=
  ⟨rfl, nofun⟩

theorem partcmdApply (p : Fin 24) : Statement (.partcmdApply p) :=
  ⟨rfl, nofun⟩

theorem partcmdDestroy (p : Fin 24) : Statement (.partcmdDestroy p) :=
  ⟨rfl, nofun⟩

theorem applyComplete (p : Fin 24) : Statement (.applyComplete p) :=
  ⟨rfl, nofun⟩

theorem functionLevelReset (p : Fin 24) : Statement (.functionLevelReset p) :=
  ⟨rfl, nofun⟩

theorem attestationRequest (p : Fin 24) (nonce : BitVec 256) : Statement (.attestationRequest p nonce) :=
  ⟨rfl, nofun⟩

theorem sweeperVisit (k : CoreKey) : Statement (.sweeperVisit k) :=
  ⟨rfl, nofun⟩

theorem sampleRecord (k : CoreKey) : Statement (.sampleRecord k) :=
  ⟨rfl, nofun⟩

theorem sampleRingSet (p : Fin 24) (size : Bool) (val : Word) : Statement (.sampleRingSet p size val) :=
  ⟨rfl, nofun⟩

theorem registerWrite (fn : Fin 25) (off n : Nat) (val : Word) : Statement (.registerWrite fn off n val) :=
  ⟨rfl, nofun⟩

theorem restoreComplete (g : Nat) : Statement (.restoreComplete g) :=
  ⟨rfl, nofun⟩

end Sys2Proof.Laws.Slots
end

