-- ==== Sys2Proof/Laws/State.lean ====
section
/-! SUPPORT. What each named update of the state leaves in each field: no later proof unfolds a record update. -/

namespace Sys2Proof.Machine


/-! ### `modCore` -/

@[simp] theorem State.modCore_time (s : State) (f : Core → Core) : (s.modCore f).time = s.time := rfl
@[simp] theorem State.modCore_mem (s : State) (f : Core → Core) : (s.modCore f).mem = s.mem := rfl
@[simp] theorem State.modCore_wrote (s : State) (f : Core → Core) : (s.modCore f).wrote = s.wrote := rfl
@[simp] theorem State.modCore_lpddr (s : State) (f : Core → Core) : (s.modCore f).lpddr = s.lpddr := rfl
@[simp] theorem State.modCore_lines (s : State) (f : Core → Core) : (s.modCore f).lines = s.lines := rfl
@[simp] theorem State.modCore_stamp (s : State) (f : Core → Core) : (s.modCore f).stamp = s.stamp := rfl
@[simp] theorem State.modCore_older (s : State) (f : Core → Core) : (s.modCore f).older = s.older := rfl
@[simp] theorem State.modCore_key (s : State) (f : Core → Core) : (s.modCore f).key = s.key := rfl
@[simp] theorem State.modCore_core (s : State) (f : Core → Core) : (s.modCore f).core = f s.core := rfl
@[simp] theorem State.modCore_others (s : State) (f : Core → Core) : (s.modCore f).others = s.others := rfl
@[simp] theorem State.modCore_plies (s : State) (f : Core → Core) : (s.modCore f).plies = s.plies := rfl
@[simp] theorem State.modCore_clr (s : State) (f : Core → Core) : (s.modCore f).clr = s.clr := rfl
@[simp] theorem State.modCore_gangs (s : State) (f : Core → Core) : (s.modCore f).gangs = s.gangs := rfl
@[simp] theorem State.modCore_rails (s : State) (f : Core → Core) : (s.modCore f).rails = s.rails := rfl
@[simp] theorem State.modCore_railHold (s : State) (f : Core → Core) : (s.modCore f).railHold = s.railHold := rfl
@[simp] theorem State.modCore_railWait (s : State) (f : Core → Core) : (s.modCore f).railWait = s.railWait := rfl
@[simp] theorem State.modCore_parts (s : State) (f : Core → Core) : (s.modCore f).parts = s.parts := rfl
@[simp] theorem State.modCore_round (s : State) (f : Core → Core) : (s.modCore f).round = s.round := rfl
@[simp] theorem State.modCore_tenqs (s : State) (f : Core → Core) : (s.modCore f).tenqs = s.tenqs := rfl
@[simp] theorem State.modCore_reqs (s : State) (f : Core → Core) : (s.modCore f).reqs = s.reqs := rfl
@[simp] theorem State.modCore_chunks (s : State) (f : Core → Core) : (s.modCore f).chunks = s.chunks := rfl
@[simp] theorem State.modCore_link (s : State) (f : Core → Core) : (s.modCore f).link = s.link := rfl
@[simp] theorem State.modCore_hostW (s : State) (f : Core → Core) : (s.modCore f).hostW = s.hostW := rfl
@[simp] theorem State.modCore_hostN (s : State) (f : Core → Core) : (s.modCore f).hostN = s.hostN := rfl
@[simp] theorem State.modCore_hostMark (s : State) (f : Core → Core) : (s.modCore f).hostMark = s.hostMark := rfl
@[simp] theorem State.modCore_bringUp (s : State) (f : Core → Core) : (s.modCore f).bringUp = s.bringUp := rfl
@[simp] theorem State.modCore_isReady (s : State) (f : Core → Core) : (s.modCore f).isReady = s.isReady := rfl
@[simp] theorem State.modCore_rejected (s : State) (f : Core → Core) : (s.modCore f).rejected = s.rejected := rfl
@[simp] theorem State.modCore_failed (s : State) (f : Core → Core) : (s.modCore f).failed = s.failed := rfl
@[simp] theorem State.modCore_actf (s : State) (f : Core → Core) : (s.modCore f).actf = s.actf := rfl
@[simp] theorem State.modCore_fwMeasure (s : State) (f : Core → Core) : (s.modCore f).fwMeasure = s.fwMeasure := rfl
@[simp] theorem State.modCore_out (s : State) (f : Core → Core) : (s.modCore f).out = s.out := rfl
@[simp] theorem State.modCore_agenda (s : State) (f : Core → Core) : (s.modCore f).agenda = s.agenda := rfl
@[simp] theorem State.modCore_dawn (s : State) (f : Core → Core) : (s.modCore f).dawn = s.dawn := rfl
@[simp] theorem State.modCore_turn (s : State) (f : Core → Core) : (s.modCore f).turn = s.turn := rfl
@[simp] theorem State.modCore_cal (s : State) (f : Core → Core) : (s.modCore f).cal = s.cal := rfl
@[simp] theorem State.modCore_draws (s : State) (f : Core → Core) : (s.modCore f).draws = s.draws := rfl
@[simp] theorem State.modCore_party (s : State) (f : Core → Core) : (s.modCore f).party = s.party := rfl
@[simp] theorem State.modCore_seeds (s : State) (f : Core → Core) : (s.modCore f).seeds = s.seeds := rfl

/-! ### `modCtx` -/

@[simp] theorem State.modCtx_time (s : State) (f : Ctx → Ctx) : (s.modCtx f).time = s.time := rfl
@[simp] theorem State.modCtx_mem (s : State) (f : Ctx → Ctx) : (s.modCtx f).mem = s.mem := rfl
@[simp] theorem State.modCtx_wrote (s : State) (f : Ctx → Ctx) : (s.modCtx f).wrote = s.wrote := rfl
@[simp] theorem State.modCtx_lpddr (s : State) (f : Ctx → Ctx) : (s.modCtx f).lpddr = s.lpddr := rfl
@[simp] theorem State.modCtx_lines (s : State) (f : Ctx → Ctx) : (s.modCtx f).lines = s.lines := rfl
@[simp] theorem State.modCtx_stamp (s : State) (f : Ctx → Ctx) : (s.modCtx f).stamp = s.stamp := rfl
@[simp] theorem State.modCtx_older (s : State) (f : Ctx → Ctx) : (s.modCtx f).older = s.older := rfl
@[simp] theorem State.modCtx_key (s : State) (f : Ctx → Ctx) : (s.modCtx f).key = s.key := rfl
@[simp] theorem State.modCtx_others (s : State) (f : Ctx → Ctx) : (s.modCtx f).others = s.others := rfl
@[simp] theorem State.modCtx_plies (s : State) (f : Ctx → Ctx) : (s.modCtx f).plies = s.plies := rfl
@[simp] theorem State.modCtx_clr (s : State) (f : Ctx → Ctx) : (s.modCtx f).clr = s.clr := rfl
@[simp] theorem State.modCtx_gangs (s : State) (f : Ctx → Ctx) : (s.modCtx f).gangs = s.gangs := rfl
@[simp] theorem State.modCtx_rails (s : State) (f : Ctx → Ctx) : (s.modCtx f).rails = s.rails := rfl
@[simp] theorem State.modCtx_railHold (s : State) (f : Ctx → Ctx) : (s.modCtx f).railHold = s.railHold := rfl
@[simp] theorem State.modCtx_railWait (s : State) (f : Ctx → Ctx) : (s.modCtx f).railWait = s.railWait := rfl
@[simp] theorem State.modCtx_parts (s : State) (f : Ctx → Ctx) : (s.modCtx f).parts = s.parts := rfl
@[simp] theorem State.modCtx_round (s : State) (f : Ctx → Ctx) : (s.modCtx f).round = s.round := rfl
@[simp] theorem State.modCtx_tenqs (s : State) (f : Ctx → Ctx) : (s.modCtx f).tenqs = s.tenqs := rfl
@[simp] theorem State.modCtx_reqs (s : State) (f : Ctx → Ctx) : (s.modCtx f).reqs = s.reqs := rfl
@[simp] theorem State.modCtx_chunks (s : State) (f : Ctx → Ctx) : (s.modCtx f).chunks = s.chunks := rfl
@[simp] theorem State.modCtx_link (s : State) (f : Ctx → Ctx) : (s.modCtx f).link = s.link := rfl
@[simp] theorem State.modCtx_hostW (s : State) (f : Ctx → Ctx) : (s.modCtx f).hostW = s.hostW := rfl
@[simp] theorem State.modCtx_hostN (s : State) (f : Ctx → Ctx) : (s.modCtx f).hostN = s.hostN := rfl
@[simp] theorem State.modCtx_hostMark (s : State) (f : Ctx → Ctx) : (s.modCtx f).hostMark = s.hostMark := rfl
@[simp] theorem State.modCtx_bringUp (s : State) (f : Ctx → Ctx) : (s.modCtx f).bringUp = s.bringUp := rfl
@[simp] theorem State.modCtx_isReady (s : State) (f : Ctx → Ctx) : (s.modCtx f).isReady = s.isReady := rfl
@[simp] theorem State.modCtx_rejected (s : State) (f : Ctx → Ctx) : (s.modCtx f).rejected = s.rejected := rfl
@[simp] theorem State.modCtx_failed (s : State) (f : Ctx → Ctx) : (s.modCtx f).failed = s.failed := rfl
@[simp] theorem State.modCtx_actf (s : State) (f : Ctx → Ctx) : (s.modCtx f).actf = s.actf := rfl
@[simp] theorem State.modCtx_fwMeasure (s : State) (f : Ctx → Ctx) : (s.modCtx f).fwMeasure = s.fwMeasure := rfl
@[simp] theorem State.modCtx_out (s : State) (f : Ctx → Ctx) : (s.modCtx f).out = s.out := rfl
@[simp] theorem State.modCtx_agenda (s : State) (f : Ctx → Ctx) : (s.modCtx f).agenda = s.agenda := rfl
@[simp] theorem State.modCtx_dawn (s : State) (f : Ctx → Ctx) : (s.modCtx f).dawn = s.dawn := rfl
@[simp] theorem State.modCtx_turn (s : State) (f : Ctx → Ctx) : (s.modCtx f).turn = s.turn := rfl
@[simp] theorem State.modCtx_cal (s : State) (f : Ctx → Ctx) : (s.modCtx f).cal = s.cal := rfl
@[simp] theorem State.modCtx_draws (s : State) (f : Ctx → Ctx) : (s.modCtx f).draws = s.draws := rfl
@[simp] theorem State.modCtx_party (s : State) (f : Ctx → Ctx) : (s.modCtx f).party = s.party := rfl
@[simp] theorem State.modCtx_seeds (s : State) (f : Ctx → Ctx) : (s.modCtx f).seeds = s.seeds := rfl
@[simp] theorem State.modCtx_core_act (s : State) (f : Ctx → Ctx) : (s.modCtx f).core.act = f s.core.act := rfl
@[simp] theorem State.modCtx_core_sby (s : State) (f : Ctx → Ctx) : (s.modCtx f).core.sby = s.core.sby := rfl
@[simp] theorem State.modCtx_core_spm (s : State) (f : Ctx → Ctx) : (s.modCtx f).core.spm = s.core.spm := rfl
@[simp] theorem State.modCtx_core_spBad (s : State) (f : Ctx → Ctx) : (s.modCtx f).core.spBad = s.core.spBad := rfl
@[simp] theorem State.modCtx_core_regions (s : State) (f : Ctx → Ctx) : (s.modCtx f).core.regions = s.core.regions := rfl
@[simp] theorem State.modCtx_core_gran (s : State) (f : Ctx → Ctx) : (s.modCtx f).core.gran = s.core.gran := rfl
@[simp] theorem State.modCtx_core_tlb (s : State) (f : Ctx → Ctx) : (s.modCtx f).core.tlb = s.core.tlb := rfl
@[simp] theorem State.modCtx_core_walks (s : State) (f : Ctx → Ctx) : (s.modCtx f).core.walks = s.core.walks := rfl
@[simp] theorem State.modCtx_core_tags (s : State) (f : Ctx → Ctx) : (s.modCtx f).core.tags = s.core.tags := rfl
@[simp] theorem State.modCtx_core_fetchBuf (s : State) (f : Ctx → Ctx) : (s.modCtx f).core.fetchBuf = s.core.fetchBuf := rfl
@[simp] theorem State.modCtx_core_tile (s : State) (f : Ctx → Ctx) : (s.modCtx f).core.tile = s.core.tile := rfl
@[simp] theorem State.modCtx_core_handles (s : State) (f : Ctx → Ctx) : (s.modCtx f).core.handles = s.core.handles := rfl
@[simp] theorem State.modCtx_core_copies (s : State) (f : Ctx → Ctx) : (s.modCtx f).core.copies = s.core.copies := rfl
@[simp] theorem State.modCtx_core_lastQ (s : State) (f : Ctx → Ctx) : (s.modCtx f).core.lastQ = s.core.lastQ := rfl
@[simp] theorem State.modCtx_core_creditAt (s : State) (f : Ctx → Ctx) : (s.modCtx f).core.creditAt = s.core.creditAt := rfl
@[simp] theorem State.modCtx_core_fences (s : State) (f : Ctx → Ctx) : (s.modCtx f).core.fences = s.core.fences := rfl
@[simp] theorem State.modCtx_core_pend (s : State) (f : Ctx → Ctx) : (s.modCtx f).core.pend = s.core.pend := rfl
@[simp] theorem State.modCtx_core_feeds (s : State) (f : Ctx → Ctx) : (s.modCtx f).core.feeds = s.core.feeds := rfl
@[simp] theorem State.modCtx_core_port (s : State) (f : Ctx → Ctx) : (s.modCtx f).core.port = s.core.port := rfl
@[simp] theorem State.modCtx_core_toks (s : State) (f : Ctx → Ctx) : (s.modCtx f).core.toks = s.core.toks := rfl
@[simp] theorem State.modCtx_core_sendBuf (s : State) (f : Ctx → Ctx) : (s.modCtx f).core.sendBuf = s.core.sendBuf := rfl
@[simp] theorem State.modCtx_core_ev (s : State) (f : Ctx → Ctx) : (s.modCtx f).core.ev = s.core.ev := rfl
@[simp] theorem State.modCtx_core_evSeen (s : State) (f : Ctx → Ctx) : (s.modCtx f).core.evSeen = s.core.evSeen := rfl
@[simp] theorem State.modCtx_core_evTick (s : State) (f : Ctx → Ctx) : (s.modCtx f).core.evTick = s.core.evTick := rfl
@[simp] theorem State.modCtx_core_hist (s : State) (f : Ctx → Ctx) : (s.modCtx f).core.hist = s.core.hist := rfl
@[simp] theorem State.modCtx_core_meshTok (s : State) (f : Ctx → Ctx) : (s.modCtx f).core.meshTok = s.core.meshTok := rfl
@[simp] theorem State.modCtx_core_regsx (s : State) (f : Ctx → Ctx) : (s.modCtx f).core.regsx = s.core.regsx := rfl

/-! ### `modPart` -/

@[simp] theorem State.modPart_time (s : State) (p : Fin 24) (f : Part → Part) : (s.modPart p f).time = s.time := rfl
@[simp] theorem State.modPart_mem (s : State) (p : Fin 24) (f : Part → Part) : (s.modPart p f).mem = s.mem := rfl
@[simp] theorem State.modPart_wrote (s : State) (p : Fin 24) (f : Part → Part) : (s.modPart p f).wrote = s.wrote := rfl
@[simp] theorem State.modPart_lpddr (s : State) (p : Fin 24) (f : Part → Part) : (s.modPart p f).lpddr = s.lpddr := rfl
@[simp] theorem State.modPart_lines (s : State) (p : Fin 24) (f : Part → Part) : (s.modPart p f).lines = s.lines := rfl
@[simp] theorem State.modPart_stamp (s : State) (p : Fin 24) (f : Part → Part) : (s.modPart p f).stamp = s.stamp := rfl
@[simp] theorem State.modPart_older (s : State) (p : Fin 24) (f : Part → Part) : (s.modPart p f).older = s.older := rfl
@[simp] theorem State.modPart_key (s : State) (p : Fin 24) (f : Part → Part) : (s.modPart p f).key = s.key := rfl
@[simp] theorem State.modPart_core (s : State) (p : Fin 24) (f : Part → Part) : (s.modPart p f).core = s.core := rfl
@[simp] theorem State.modPart_others (s : State) (p : Fin 24) (f : Part → Part) : (s.modPart p f).others = s.others := rfl
@[simp] theorem State.modPart_plies (s : State) (p : Fin 24) (f : Part → Part) : (s.modPart p f).plies = s.plies := rfl
@[simp] theorem State.modPart_clr (s : State) (p : Fin 24) (f : Part → Part) : (s.modPart p f).clr = s.clr := rfl
@[simp] theorem State.modPart_gangs (s : State) (p : Fin 24) (f : Part → Part) : (s.modPart p f).gangs = s.gangs := rfl
@[simp] theorem State.modPart_rails (s : State) (p : Fin 24) (f : Part → Part) : (s.modPart p f).rails = s.rails := rfl
@[simp] theorem State.modPart_railHold (s : State) (p : Fin 24) (f : Part → Part) : (s.modPart p f).railHold = s.railHold := rfl
@[simp] theorem State.modPart_railWait (s : State) (p : Fin 24) (f : Part → Part) : (s.modPart p f).railWait = s.railWait := rfl
@[simp] theorem State.modPart_parts (s : State) (p : Fin 24) (f : Part → Part) : (s.modPart p f).parts = s.parts.set p (f s.parts[p]) := rfl
@[simp] theorem State.modPart_round (s : State) (p : Fin 24) (f : Part → Part) : (s.modPart p f).round = s.round := rfl
@[simp] theorem State.modPart_tenqs (s : State) (p : Fin 24) (f : Part → Part) : (s.modPart p f).tenqs = s.tenqs := rfl
@[simp] theorem State.modPart_reqs (s : State) (p : Fin 24) (f : Part → Part) : (s.modPart p f).reqs = s.reqs := rfl
@[simp] theorem State.modPart_chunks (s : State) (p : Fin 24) (f : Part → Part) : (s.modPart p f).chunks = s.chunks := rfl
@[simp] theorem State.modPart_link (s : State) (p : Fin 24) (f : Part → Part) : (s.modPart p f).link = s.link := rfl
@[simp] theorem State.modPart_hostW (s : State) (p : Fin 24) (f : Part → Part) : (s.modPart p f).hostW = s.hostW := rfl
@[simp] theorem State.modPart_hostN (s : State) (p : Fin 24) (f : Part → Part) : (s.modPart p f).hostN = s.hostN := rfl
@[simp] theorem State.modPart_hostMark (s : State) (p : Fin 24) (f : Part → Part) : (s.modPart p f).hostMark = s.hostMark := rfl
@[simp] theorem State.modPart_bringUp (s : State) (p : Fin 24) (f : Part → Part) : (s.modPart p f).bringUp = s.bringUp := rfl
@[simp] theorem State.modPart_isReady (s : State) (p : Fin 24) (f : Part → Part) : (s.modPart p f).isReady = s.isReady := rfl
@[simp] theorem State.modPart_rejected (s : State) (p : Fin 24) (f : Part → Part) : (s.modPart p f).rejected = s.rejected := rfl
@[simp] theorem State.modPart_failed (s : State) (p : Fin 24) (f : Part → Part) : (s.modPart p f).failed = s.failed := rfl
@[simp] theorem State.modPart_actf (s : State) (p : Fin 24) (f : Part → Part) : (s.modPart p f).actf = s.actf := rfl
@[simp] theorem State.modPart_fwMeasure (s : State) (p : Fin 24) (f : Part → Part) : (s.modPart p f).fwMeasure = s.fwMeasure := rfl
@[simp] theorem State.modPart_out (s : State) (p : Fin 24) (f : Part → Part) : (s.modPart p f).out = s.out := rfl
@[simp] theorem State.modPart_agenda (s : State) (p : Fin 24) (f : Part → Part) : (s.modPart p f).agenda = s.agenda := rfl
@[simp] theorem State.modPart_dawn (s : State) (p : Fin 24) (f : Part → Part) : (s.modPart p f).dawn = s.dawn := rfl
@[simp] theorem State.modPart_turn (s : State) (p : Fin 24) (f : Part → Part) : (s.modPart p f).turn = s.turn := rfl
@[simp] theorem State.modPart_cal (s : State) (p : Fin 24) (f : Part → Part) : (s.modPart p f).cal = s.cal := rfl
@[simp] theorem State.modPart_draws (s : State) (p : Fin 24) (f : Part → Part) : (s.modPart p f).draws = s.draws := rfl
@[simp] theorem State.modPart_party (s : State) (p : Fin 24) (f : Part → Part) : (s.modPart p f).party = s.party := rfl
@[simp] theorem State.modPart_seeds (s : State) (p : Fin 24) (f : Part → Part) : (s.modPart p f).seeds = s.seeds := rfl

/-! ### `drawn`, `soon`, `later` -/

@[simp] theorem State.drawn_time (s : State) : s.drawn.time = s.time := rfl
@[simp] theorem State.drawn_mem (s : State) : s.drawn.mem = s.mem := rfl
@[simp] theorem State.drawn_wrote (s : State) : s.drawn.wrote = s.wrote := rfl
@[simp] theorem State.drawn_lpddr (s : State) : s.drawn.lpddr = s.lpddr := rfl
@[simp] theorem State.drawn_lines (s : State) : s.drawn.lines = s.lines := rfl
@[simp] theorem State.drawn_stamp (s : State) : s.drawn.stamp = s.stamp := rfl
@[simp] theorem State.drawn_older (s : State) : s.drawn.older = s.older := rfl
@[simp] theorem State.drawn_key (s : State) : s.drawn.key = s.key := rfl
@[simp] theorem State.drawn_core (s : State) : s.drawn.core = s.core := rfl
@[simp] theorem State.drawn_others (s : State) : s.drawn.others = s.others := rfl
@[simp] theorem State.drawn_plies (s : State) : s.drawn.plies = s.plies := rfl
@[simp] theorem State.drawn_clr (s : State) : s.drawn.clr = s.clr := rfl
@[simp] theorem State.drawn_gangs (s : State) : s.drawn.gangs = s.gangs := rfl
@[simp] theorem State.drawn_rails (s : State) : s.drawn.rails = s.rails := rfl
@[simp] theorem State.drawn_railHold (s : State) : s.drawn.railHold = s.railHold := rfl
@[simp] theorem State.drawn_railWait (s : State) : s.drawn.railWait = s.railWait := rfl
@[simp] theorem State.drawn_parts (s : State) : s.drawn.parts = s.parts := rfl
@[simp] theorem State.drawn_round (s : State) : s.drawn.round = s.round := rfl
@[simp] theorem State.drawn_tenqs (s : State) : s.drawn.tenqs = s.tenqs := rfl
@[simp] theorem State.drawn_reqs (s : State) : s.drawn.reqs = s.reqs := rfl
@[simp] theorem State.drawn_chunks (s : State) : s.drawn.chunks = s.chunks := rfl
@[simp] theorem State.drawn_link (s : State) : s.drawn.link = s.link := rfl
@[simp] theorem State.drawn_hostW (s : State) : s.drawn.hostW = s.hostW := rfl
@[simp] theorem State.drawn_hostN (s : State) : s.drawn.hostN = s.hostN := rfl
@[simp] theorem State.drawn_hostMark (s : State) : s.drawn.hostMark = s.hostMark := rfl
@[simp] theorem State.drawn_bringUp (s : State) : s.drawn.bringUp = s.bringUp := rfl
@[simp] theorem State.drawn_isReady (s : State) : s.drawn.isReady = s.isReady := rfl
@[simp] theorem State.drawn_rejected (s : State) : s.drawn.rejected = s.rejected := rfl
@[simp] theorem State.drawn_failed (s : State) : s.drawn.failed = s.failed := rfl
@[simp] theorem State.drawn_actf (s : State) : s.drawn.actf = s.actf := rfl
@[simp] theorem State.drawn_fwMeasure (s : State) : s.drawn.fwMeasure = s.fwMeasure := rfl
@[simp] theorem State.drawn_out (s : State) : s.drawn.out = s.out := rfl
@[simp] theorem State.drawn_agenda (s : State) : s.drawn.agenda = s.agenda := rfl
@[simp] theorem State.drawn_dawn (s : State) : s.drawn.dawn = s.dawn := rfl
@[simp] theorem State.drawn_turn (s : State) : s.drawn.turn = s.turn := rfl
@[simp] theorem State.drawn_cal (s : State) : s.drawn.cal = s.cal := rfl
@[simp] theorem State.drawn_draws (s : State) : s.drawn.draws = s.draws + 1 := rfl
@[simp] theorem State.drawn_party (s : State) : s.drawn.party = s.party := rfl
@[simp] theorem State.drawn_seeds (s : State) : s.drawn.seeds = s.seeds := rfl
@[simp] theorem State.soon_time (s : State) (e : Instr) : (s.soon e).time = s.time := rfl
@[simp] theorem State.soon_mem (s : State) (e : Instr) : (s.soon e).mem = s.mem := rfl
@[simp] theorem State.soon_wrote (s : State) (e : Instr) : (s.soon e).wrote = s.wrote := rfl
@[simp] theorem State.soon_lpddr (s : State) (e : Instr) : (s.soon e).lpddr = s.lpddr := rfl
@[simp] theorem State.soon_lines (s : State) (e : Instr) : (s.soon e).lines = s.lines := rfl
@[simp] theorem State.soon_stamp (s : State) (e : Instr) : (s.soon e).stamp = s.stamp := rfl
@[simp] theorem State.soon_older (s : State) (e : Instr) : (s.soon e).older = s.older := rfl
@[simp] theorem State.soon_key (s : State) (e : Instr) : (s.soon e).key = s.key := rfl
@[simp] theorem State.soon_core (s : State) (e : Instr) : (s.soon e).core = s.core := rfl
@[simp] theorem State.soon_others (s : State) (e : Instr) : (s.soon e).others = s.others := rfl
@[simp] theorem State.soon_plies (s : State) (e : Instr) : (s.soon e).plies = s.plies := rfl
@[simp] theorem State.soon_clr (s : State) (e : Instr) : (s.soon e).clr = s.clr := rfl
@[simp] theorem State.soon_gangs (s : State) (e : Instr) : (s.soon e).gangs = s.gangs := rfl
@[simp] theorem State.soon_rails (s : State) (e : Instr) : (s.soon e).rails = s.rails := rfl
@[simp] theorem State.soon_railHold (s : State) (e : Instr) : (s.soon e).railHold = s.railHold := rfl
@[simp] theorem State.soon_railWait (s : State) (e : Instr) : (s.soon e).railWait = s.railWait := rfl
@[simp] theorem State.soon_parts (s : State) (e : Instr) : (s.soon e).parts = s.parts := rfl
@[simp] theorem State.soon_round (s : State) (e : Instr) : (s.soon e).round = s.round := rfl
@[simp] theorem State.soon_tenqs (s : State) (e : Instr) : (s.soon e).tenqs = s.tenqs := rfl
@[simp] theorem State.soon_reqs (s : State) (e : Instr) : (s.soon e).reqs = s.reqs := rfl
@[simp] theorem State.soon_chunks (s : State) (e : Instr) : (s.soon e).chunks = s.chunks := rfl
@[simp] theorem State.soon_link (s : State) (e : Instr) : (s.soon e).link = s.link := rfl
@[simp] theorem State.soon_hostW (s : State) (e : Instr) : (s.soon e).hostW = s.hostW := rfl
@[simp] theorem State.soon_hostN (s : State) (e : Instr) : (s.soon e).hostN = s.hostN := rfl
@[simp] theorem State.soon_hostMark (s : State) (e : Instr) : (s.soon e).hostMark = s.hostMark := rfl
@[simp] theorem State.soon_bringUp (s : State) (e : Instr) : (s.soon e).bringUp = s.bringUp := rfl
@[simp] theorem State.soon_isReady (s : State) (e : Instr) : (s.soon e).isReady = s.isReady := rfl
@[simp] theorem State.soon_rejected (s : State) (e : Instr) : (s.soon e).rejected = s.rejected := rfl
@[simp] theorem State.soon_failed (s : State) (e : Instr) : (s.soon e).failed = s.failed := rfl
@[simp] theorem State.soon_actf (s : State) (e : Instr) : (s.soon e).actf = s.actf := rfl
@[simp] theorem State.soon_fwMeasure (s : State) (e : Instr) : (s.soon e).fwMeasure = s.fwMeasure := rfl
@[simp] theorem State.soon_out (s : State) (e : Instr) : (s.soon e).out = s.out := rfl
@[simp] theorem State.soon_agenda (s : State) (e : Instr) : (s.soon e).agenda = s.agenda ++ [e] := rfl
@[simp] theorem State.soon_dawn (s : State) (e : Instr) : (s.soon e).dawn = s.dawn := rfl
@[simp] theorem State.soon_turn (s : State) (e : Instr) : (s.soon e).turn = s.turn := rfl
@[simp] theorem State.soon_cal (s : State) (e : Instr) : (s.soon e).cal = s.cal := rfl
@[simp] theorem State.soon_draws (s : State) (e : Instr) : (s.soon e).draws = s.draws := rfl
@[simp] theorem State.soon_party (s : State) (e : Instr) : (s.soon e).party = s.party := rfl
@[simp] theorem State.soon_seeds (s : State) (e : Instr) : (s.soon e).seeds = s.seeds := rfl
@[simp] theorem State.later_time (s : State) (n : Nat) (e : Instr) : (s.later n e).time = s.time := rfl
@[simp] theorem State.later_mem (s : State) (n : Nat) (e : Instr) : (s.later n e).mem = s.mem := rfl
@[simp] theorem State.later_wrote (s : State) (n : Nat) (e : Instr) : (s.later n e).wrote = s.wrote := rfl
@[simp] theorem State.later_lpddr (s : State) (n : Nat) (e : Instr) : (s.later n e).lpddr = s.lpddr := rfl
@[simp] theorem State.later_lines (s : State) (n : Nat) (e : Instr) : (s.later n e).lines = s.lines := rfl
@[simp] theorem State.later_stamp (s : State) (n : Nat) (e : Instr) : (s.later n e).stamp = s.stamp := rfl
@[simp] theorem State.later_older (s : State) (n : Nat) (e : Instr) : (s.later n e).older = s.older := rfl
@[simp] theorem State.later_key (s : State) (n : Nat) (e : Instr) : (s.later n e).key = s.key := rfl
@[simp] theorem State.later_core (s : State) (n : Nat) (e : Instr) : (s.later n e).core = s.core := rfl
@[simp] theorem State.later_others (s : State) (n : Nat) (e : Instr) : (s.later n e).others = s.others := rfl
@[simp] theorem State.later_plies (s : State) (n : Nat) (e : Instr) : (s.later n e).plies = s.plies := rfl
@[simp] theorem State.later_clr (s : State) (n : Nat) (e : Instr) : (s.later n e).clr = s.clr := rfl
@[simp] theorem State.later_gangs (s : State) (n : Nat) (e : Instr) : (s.later n e).gangs = s.gangs := rfl
@[simp] theorem State.later_rails (s : State) (n : Nat) (e : Instr) : (s.later n e).rails = s.rails := rfl
@[simp] theorem State.later_railHold (s : State) (n : Nat) (e : Instr) : (s.later n e).railHold = s.railHold := rfl
@[simp] theorem State.later_railWait (s : State) (n : Nat) (e : Instr) : (s.later n e).railWait = s.railWait := rfl
@[simp] theorem State.later_parts (s : State) (n : Nat) (e : Instr) : (s.later n e).parts = s.parts := rfl
@[simp] theorem State.later_round (s : State) (n : Nat) (e : Instr) : (s.later n e).round = s.round := rfl
@[simp] theorem State.later_tenqs (s : State) (n : Nat) (e : Instr) : (s.later n e).tenqs = s.tenqs := rfl
@[simp] theorem State.later_reqs (s : State) (n : Nat) (e : Instr) : (s.later n e).reqs = s.reqs := rfl
@[simp] theorem State.later_chunks (s : State) (n : Nat) (e : Instr) : (s.later n e).chunks = s.chunks := rfl
@[simp] theorem State.later_link (s : State) (n : Nat) (e : Instr) : (s.later n e).link = s.link := rfl
@[simp] theorem State.later_hostW (s : State) (n : Nat) (e : Instr) : (s.later n e).hostW = s.hostW := rfl
@[simp] theorem State.later_hostN (s : State) (n : Nat) (e : Instr) : (s.later n e).hostN = s.hostN := rfl
@[simp] theorem State.later_hostMark (s : State) (n : Nat) (e : Instr) : (s.later n e).hostMark = s.hostMark := rfl
@[simp] theorem State.later_bringUp (s : State) (n : Nat) (e : Instr) : (s.later n e).bringUp = s.bringUp := rfl
@[simp] theorem State.later_isReady (s : State) (n : Nat) (e : Instr) : (s.later n e).isReady = s.isReady := rfl
@[simp] theorem State.later_rejected (s : State) (n : Nat) (e : Instr) : (s.later n e).rejected = s.rejected := rfl
@[simp] theorem State.later_failed (s : State) (n : Nat) (e : Instr) : (s.later n e).failed = s.failed := rfl
@[simp] theorem State.later_actf (s : State) (n : Nat) (e : Instr) : (s.later n e).actf = s.actf := rfl
@[simp] theorem State.later_fwMeasure (s : State) (n : Nat) (e : Instr) : (s.later n e).fwMeasure = s.fwMeasure := rfl
@[simp] theorem State.later_out (s : State) (n : Nat) (e : Instr) : (s.later n e).out = s.out := rfl
@[simp] theorem State.later_agenda (s : State) (n : Nat) (e : Instr) : (s.later n e).agenda = s.agenda := rfl
@[simp] theorem State.later_dawn (s : State) (n : Nat) (e : Instr) : (s.later n e).dawn = s.dawn := rfl
@[simp] theorem State.later_turn (s : State) (n : Nat) (e : Instr) : (s.later n e).turn = s.turn := rfl
@[simp] theorem State.later_cal (s : State) (n : Nat) (e : Instr) : (s.later n e).cal = s.cal ++ [(s.time + n + Config.lat s.seed, e)] := rfl
@[simp] theorem State.later_draws (s : State) (n : Nat) (e : Instr) : (s.later n e).draws = s.draws + 1 := rfl
@[simp] theorem State.later_party (s : State) (n : Nat) (e : Instr) : (s.later n e).party = s.party := rfl
@[simp] theorem State.later_seeds (s : State) (n : Nat) (e : Instr) : (s.later n e).seeds = s.seeds := rfl

/-! ### `at` -/

@[simp] theorem State.at_time (s : State) (n : Nat) (e : Instr) : (s.at n e).time = s.time := by unfold State.at; split <;> rfl
@[simp] theorem State.at_mem (s : State) (n : Nat) (e : Instr) : (s.at n e).mem = s.mem := by unfold State.at; split <;> rfl
@[simp] theorem State.at_wrote (s : State) (n : Nat) (e : Instr) : (s.at n e).wrote = s.wrote := by unfold State.at; split <;> rfl
@[simp] theorem State.at_lpddr (s : State) (n : Nat) (e : Instr) : (s.at n e).lpddr = s.lpddr := by unfold State.at; split <;> rfl
@[simp] theorem State.at_lines (s : State) (n : Nat) (e : Instr) : (s.at n e).lines = s.lines := by unfold State.at; split <;> rfl
@[simp] theorem State.at_stamp (s : State) (n : Nat) (e : Instr) : (s.at n e).stamp = s.stamp := by unfold State.at; split <;> rfl
@[simp] theorem State.at_older (s : State) (n : Nat) (e : Instr) : (s.at n e).older = s.older := by unfold State.at; split <;> rfl
@[simp] theorem State.at_key (s : State) (n : Nat) (e : Instr) : (s.at n e).key = s.key := by unfold State.at; split <;> rfl
@[simp] theorem State.at_core (s : State) (n : Nat) (e : Instr) : (s.at n e).core = s.core := by unfold State.at; split <;> rfl
@[simp] theorem State.at_others (s : State) (n : Nat) (e : Instr) : (s.at n e).others = s.others := by unfold State.at; split <;> rfl
@[simp] theorem State.at_plies (s : State) (n : Nat) (e : Instr) : (s.at n e).plies = s.plies := by unfold State.at; split <;> rfl
@[simp] theorem State.at_clr (s : State) (n : Nat) (e : Instr) : (s.at n e).clr = s.clr := by unfold State.at; split <;> rfl
@[simp] theorem State.at_gangs (s : State) (n : Nat) (e : Instr) : (s.at n e).gangs = s.gangs := by unfold State.at; split <;> rfl
@[simp] theorem State.at_rails (s : State) (n : Nat) (e : Instr) : (s.at n e).rails = s.rails := by unfold State.at; split <;> rfl
@[simp] theorem State.at_railHold (s : State) (n : Nat) (e : Instr) : (s.at n e).railHold = s.railHold := by unfold State.at; split <;> rfl
@[simp] theorem State.at_railWait (s : State) (n : Nat) (e : Instr) : (s.at n e).railWait = s.railWait := by unfold State.at; split <;> rfl
@[simp] theorem State.at_parts (s : State) (n : Nat) (e : Instr) : (s.at n e).parts = s.parts := by unfold State.at; split <;> rfl
@[simp] theorem State.at_round (s : State) (n : Nat) (e : Instr) : (s.at n e).round = s.round := by unfold State.at; split <;> rfl
@[simp] theorem State.at_tenqs (s : State) (n : Nat) (e : Instr) : (s.at n e).tenqs = s.tenqs := by unfold State.at; split <;> rfl
@[simp] theorem State.at_reqs (s : State) (n : Nat) (e : Instr) : (s.at n e).reqs = s.reqs := by unfold State.at; split <;> rfl
@[simp] theorem State.at_chunks (s : State) (n : Nat) (e : Instr) : (s.at n e).chunks = s.chunks := by unfold State.at; split <;> rfl
@[simp] theorem State.at_link (s : State) (n : Nat) (e : Instr) : (s.at n e).link = s.link := by unfold State.at; split <;> rfl
@[simp] theorem State.at_hostW (s : State) (n : Nat) (e : Instr) : (s.at n e).hostW = s.hostW := by unfold State.at; split <;> rfl
@[simp] theorem State.at_hostN (s : State) (n : Nat) (e : Instr) : (s.at n e).hostN = s.hostN := by unfold State.at; split <;> rfl
@[simp] theorem State.at_hostMark (s : State) (n : Nat) (e : Instr) : (s.at n e).hostMark = s.hostMark := by unfold State.at; split <;> rfl
@[simp] theorem State.at_bringUp (s : State) (n : Nat) (e : Instr) : (s.at n e).bringUp = s.bringUp := by unfold State.at; split <;> rfl
@[simp] theorem State.at_isReady (s : State) (n : Nat) (e : Instr) : (s.at n e).isReady = s.isReady := by unfold State.at; split <;> rfl
@[simp] theorem State.at_rejected (s : State) (n : Nat) (e : Instr) : (s.at n e).rejected = s.rejected := by unfold State.at; split <;> rfl
@[simp] theorem State.at_failed (s : State) (n : Nat) (e : Instr) : (s.at n e).failed = s.failed := by unfold State.at; split <;> rfl
@[simp] theorem State.at_actf (s : State) (n : Nat) (e : Instr) : (s.at n e).actf = s.actf := by unfold State.at; split <;> rfl
@[simp] theorem State.at_fwMeasure (s : State) (n : Nat) (e : Instr) : (s.at n e).fwMeasure = s.fwMeasure := by unfold State.at; split <;> rfl
@[simp] theorem State.at_out (s : State) (n : Nat) (e : Instr) : (s.at n e).out = s.out := by unfold State.at; split <;> rfl
@[simp] theorem State.at_dawn (s : State) (n : Nat) (e : Instr) : (s.at n e).dawn = s.dawn := by unfold State.at; split <;> rfl
@[simp] theorem State.at_turn (s : State) (n : Nat) (e : Instr) : (s.at n e).turn = s.turn := by unfold State.at; split <;> rfl
@[simp] theorem State.at_draws (s : State) (n : Nat) (e : Instr) : (s.at n e).draws = s.draws := by unfold State.at; split <;> rfl
@[simp] theorem State.at_party (s : State) (n : Nat) (e : Instr) : (s.at n e).party = s.party := by unfold State.at; split <;> rfl
@[simp] theorem State.at_seeds (s : State) (n : Nat) (e : Instr) : (s.at n e).seeds = s.seeds := by unfold State.at; split <;> rfl

/-! ### `asParty` -/

@[simp] theorem State.asParty_time (s : State) (p : Nat) : (s.asParty p).time = s.time := by unfold State.asParty; split <;> rfl
@[simp] theorem State.asParty_mem (s : State) (p : Nat) : (s.asParty p).mem = s.mem := by unfold State.asParty; split <;> rfl
@[simp] theorem State.asParty_wrote (s : State) (p : Nat) : (s.asParty p).wrote = s.wrote := by unfold State.asParty; split <;> rfl
@[simp] theorem State.asParty_lpddr (s : State) (p : Nat) : (s.asParty p).lpddr = s.lpddr := by unfold State.asParty; split <;> rfl
@[simp] theorem State.asParty_lines (s : State) (p : Nat) : (s.asParty p).lines = s.lines := by unfold State.asParty; split <;> rfl
@[simp] theorem State.asParty_stamp (s : State) (p : Nat) : (s.asParty p).stamp = s.stamp := by unfold State.asParty; split <;> rfl
@[simp] theorem State.asParty_older (s : State) (p : Nat) : (s.asParty p).older = s.older := by unfold State.asParty; split <;> rfl
@[simp] theorem State.asParty_key (s : State) (p : Nat) : (s.asParty p).key = s.key := by unfold State.asParty; split <;> rfl
@[simp] theorem State.asParty_core (s : State) (p : Nat) : (s.asParty p).core = s.core := by unfold State.asParty; split <;> rfl
@[simp] theorem State.asParty_others (s : State) (p : Nat) : (s.asParty p).others = s.others := by unfold State.asParty; split <;> rfl
@[simp] theorem State.asParty_plies (s : State) (p : Nat) : (s.asParty p).plies = s.plies := by unfold State.asParty; split <;> rfl
@[simp] theorem State.asParty_clr (s : State) (p : Nat) : (s.asParty p).clr = s.clr := by unfold State.asParty; split <;> rfl
@[simp] theorem State.asParty_gangs (s : State) (p : Nat) : (s.asParty p).gangs = s.gangs := by unfold State.asParty; split <;> rfl
@[simp] theorem State.asParty_rails (s : State) (p : Nat) : (s.asParty p).rails = s.rails := by unfold State.asParty; split <;> rfl
@[simp] theorem State.asParty_railHold (s : State) (p : Nat) : (s.asParty p).railHold = s.railHold := by unfold State.asParty; split <;> rfl
@[simp] theorem State.asParty_railWait (s : State) (p : Nat) : (s.asParty p).railWait = s.railWait := by unfold State.asParty; split <;> rfl
@[simp] theorem State.asParty_parts (s : State) (p : Nat) : (s.asParty p).parts = s.parts := by unfold State.asParty; split <;> rfl
@[simp] theorem State.asParty_round (s : State) (p : Nat) : (s.asParty p).round = s.round := by unfold State.asParty; split <;> rfl
@[simp] theorem State.asParty_tenqs (s : State) (p : Nat) : (s.asParty p).tenqs = s.tenqs := by unfold State.asParty; split <;> rfl
@[simp] theorem State.asParty_reqs (s : State) (p : Nat) : (s.asParty p).reqs = s.reqs := by unfold State.asParty; split <;> rfl
@[simp] theorem State.asParty_chunks (s : State) (p : Nat) : (s.asParty p).chunks = s.chunks := by unfold State.asParty; split <;> rfl
@[simp] theorem State.asParty_link (s : State) (p : Nat) : (s.asParty p).link = s.link := by unfold State.asParty; split <;> rfl
@[simp] theorem State.asParty_hostW (s : State) (p : Nat) : (s.asParty p).hostW = s.hostW := by unfold State.asParty; split <;> rfl
@[simp] theorem State.asParty_hostN (s : State) (p : Nat) : (s.asParty p).hostN = s.hostN := by unfold State.asParty; split <;> rfl
@[simp] theorem State.asParty_hostMark (s : State) (p : Nat) : (s.asParty p).hostMark = s.hostMark := by unfold State.asParty; split <;> rfl
@[simp] theorem State.asParty_bringUp (s : State) (p : Nat) : (s.asParty p).bringUp = s.bringUp := by unfold State.asParty; split <;> rfl
@[simp] theorem State.asParty_isReady (s : State) (p : Nat) : (s.asParty p).isReady = s.isReady := by unfold State.asParty; split <;> rfl
@[simp] theorem State.asParty_rejected (s : State) (p : Nat) : (s.asParty p).rejected = s.rejected := by unfold State.asParty; split <;> rfl
@[simp] theorem State.asParty_failed (s : State) (p : Nat) : (s.asParty p).failed = s.failed := by unfold State.asParty; split <;> rfl
@[simp] theorem State.asParty_actf (s : State) (p : Nat) : (s.asParty p).actf = s.actf := by unfold State.asParty; split <;> rfl
@[simp] theorem State.asParty_fwMeasure (s : State) (p : Nat) : (s.asParty p).fwMeasure = s.fwMeasure := by unfold State.asParty; split <;> rfl
@[simp] theorem State.asParty_out (s : State) (p : Nat) : (s.asParty p).out = s.out := by unfold State.asParty; split <;> rfl
@[simp] theorem State.asParty_agenda (s : State) (p : Nat) : (s.asParty p).agenda = s.agenda := by unfold State.asParty; split <;> rfl
@[simp] theorem State.asParty_dawn (s : State) (p : Nat) : (s.asParty p).dawn = s.dawn := by unfold State.asParty; split <;> rfl
@[simp] theorem State.asParty_turn (s : State) (p : Nat) : (s.asParty p).turn = s.turn := by unfold State.asParty; split <;> rfl
@[simp] theorem State.asParty_cal (s : State) (p : Nat) : (s.asParty p).cal = s.cal := by unfold State.asParty; split <;> rfl

/-! ### `settle` and `keep` -/

@[simp] theorem settle_time (s t : State) : (settle s t).time = t.time := rfl
@[simp] theorem settle_mem (s t : State) : (settle s t).mem = s.mem.writes t.wrote.reverse := rfl
@[simp] theorem settle_wrote (s t : State) : (settle s t).wrote = [] := rfl
@[simp] theorem settle_lpddr (s t : State) : (settle s t).lpddr = t.lpddr := rfl
@[simp] theorem settle_lines (s t : State) : (settle s t).lines = t.lines := rfl
@[simp] theorem settle_stamp (s t : State) : (settle s t).stamp = t.stamp := rfl
@[simp] theorem settle_older (s t : State) : (settle s t).older = t.older := rfl
@[simp] theorem settle_key (s t : State) : (settle s t).key = t.key := rfl
@[simp] theorem settle_core (s t : State) : (settle s t).core = t.core := rfl
@[simp] theorem settle_others (s t : State) : (settle s t).others = t.others := rfl
@[simp] theorem settle_plies (s t : State) : (settle s t).plies = t.plies := rfl
@[simp] theorem settle_clr (s t : State) : (settle s t).clr = t.clr := rfl
@[simp] theorem settle_gangs (s t : State) : (settle s t).gangs = t.gangs := rfl
@[simp] theorem settle_rails (s t : State) : (settle s t).rails = t.rails := rfl
@[simp] theorem settle_railHold (s t : State) : (settle s t).railHold = t.railHold := rfl
@[simp] theorem settle_railWait (s t : State) : (settle s t).railWait = t.railWait := rfl
@[simp] theorem settle_parts (s t : State) : (settle s t).parts = t.parts := rfl
@[simp] theorem settle_round (s t : State) : (settle s t).round = t.round := rfl
@[simp] theorem settle_tenqs (s t : State) : (settle s t).tenqs = t.tenqs := rfl
@[simp] theorem settle_reqs (s t : State) : (settle s t).reqs = t.reqs := rfl
@[simp] theorem settle_chunks (s t : State) : (settle s t).chunks = t.chunks := rfl
@[simp] theorem settle_link (s t : State) : (settle s t).link = t.link := rfl
@[simp] theorem settle_hostW (s t : State) : (settle s t).hostW = t.hostW := rfl
@[simp] theorem settle_hostN (s t : State) : (settle s t).hostN = t.hostN := rfl
@[simp] theorem settle_hostMark (s t : State) : (settle s t).hostMark = t.hostMark := rfl
@[simp] theorem settle_bringUp (s t : State) : (settle s t).bringUp = t.bringUp := rfl
@[simp] theorem settle_isReady (s t : State) : (settle s t).isReady = t.isReady := rfl
@[simp] theorem settle_rejected (s t : State) : (settle s t).rejected = t.rejected := rfl
@[simp] theorem settle_failed (s t : State) : (settle s t).failed = t.failed := rfl
@[simp] theorem settle_actf (s t : State) : (settle s t).actf = t.actf := rfl
@[simp] theorem settle_fwMeasure (s t : State) : (settle s t).fwMeasure = t.fwMeasure := rfl
@[simp] theorem settle_out (s t : State) : (settle s t).out = t.out := rfl
@[simp] theorem settle_agenda (s t : State) : (settle s t).agenda = t.agenda := rfl
@[simp] theorem settle_dawn (s t : State) : (settle s t).dawn = t.dawn := rfl
@[simp] theorem settle_turn (s t : State) : (settle s t).turn = t.turn := rfl
@[simp] theorem settle_cal (s t : State) : (settle s t).cal = t.cal := rfl
@[simp] theorem settle_draws (s t : State) : (settle s t).draws = t.draws := rfl
@[simp] theorem settle_party (s t : State) : (settle s t).party = t.party := rfl
@[simp] theorem settle_seeds (s t : State) : (settle s t).seeds = t.seeds := rfl
@[simp] theorem keep_time (s t : State) : (keep s t).time = s.time := rfl
@[simp] theorem keep_mem (s t : State) : (keep s t).mem = s.mem := rfl
@[simp] theorem keep_wrote (s t : State) : (keep s t).wrote = s.wrote := rfl
@[simp] theorem keep_lpddr (s t : State) : (keep s t).lpddr = s.lpddr := rfl
@[simp] theorem keep_lines (s t : State) : (keep s t).lines = s.lines := rfl
@[simp] theorem keep_stamp (s t : State) : (keep s t).stamp = s.stamp := rfl
@[simp] theorem keep_older (s t : State) : (keep s t).older = s.older := rfl
@[simp] theorem keep_key (s t : State) : (keep s t).key = s.key := rfl
@[simp] theorem keep_core (s t : State) : (keep s t).core = t.core := rfl
@[simp] theorem keep_others (s t : State) : (keep s t).others = s.others := rfl
@[simp] theorem keep_plies (s t : State) : (keep s t).plies = t.plies := rfl
@[simp] theorem keep_clr (s t : State) : (keep s t).clr = { s.clr with queue := t.clr.queue, resyncReq := t.clr.resyncReq } := rfl
@[simp] theorem keep_gangs (s t : State) : (keep s t).gangs = s.gangs := rfl
@[simp] theorem keep_rails (s t : State) : (keep s t).rails = t.rails := rfl
@[simp] theorem keep_railHold (s t : State) : (keep s t).railHold = s.railHold := rfl
@[simp] theorem keep_railWait (s t : State) : (keep s t).railWait = s.railWait := rfl
@[simp] theorem keep_parts (s t : State) : (keep s t).parts = t.parts := rfl
@[simp] theorem keep_round (s t : State) : (keep s t).round = s.round := rfl
@[simp] theorem keep_tenqs (s t : State) : (keep s t).tenqs = t.tenqs := rfl
@[simp] theorem keep_reqs (s t : State) : (keep s t).reqs = t.reqs := rfl
@[simp] theorem keep_chunks (s t : State) : (keep s t).chunks = s.chunks := rfl
@[simp] theorem keep_link (s t : State) : (keep s t).link = s.link := rfl
@[simp] theorem keep_hostW (s t : State) : (keep s t).hostW = s.hostW := rfl
@[simp] theorem keep_hostN (s t : State) : (keep s t).hostN = s.hostN := rfl
@[simp] theorem keep_hostMark (s t : State) : (keep s t).hostMark = s.hostMark := rfl
@[simp] theorem keep_bringUp (s t : State) : (keep s t).bringUp = s.bringUp := rfl
@[simp] theorem keep_isReady (s t : State) : (keep s t).isReady = s.isReady := rfl
@[simp] theorem keep_rejected (s t : State) : (keep s t).rejected = s.rejected := rfl
@[simp] theorem keep_failed (s t : State) : (keep s t).failed = s.failed := rfl
@[simp] theorem keep_actf (s t : State) : (keep s t).actf = s.actf := rfl
@[simp] theorem keep_fwMeasure (s t : State) : (keep s t).fwMeasure = s.fwMeasure := rfl
@[simp] theorem keep_out (s t : State) : (keep s t).out = s.out := rfl
@[simp] theorem keep_agenda (s t : State) : (keep s t).agenda = t.agenda := rfl
@[simp] theorem keep_dawn (s t : State) : (keep s t).dawn = s.dawn := rfl
@[simp] theorem keep_turn (s t : State) : (keep s t).turn = t.turn := rfl
@[simp] theorem keep_cal (s t : State) : (keep s t).cal = t.cal := rfl
@[simp] theorem keep_draws (s t : State) : (keep s t).draws = t.draws := rfl
@[simp] theorem keep_party (s t : State) : (keep s t).party = s.party := rfl
@[simp] theorem keep_seeds (s t : State) : (keep s t).seeds = s.seeds := rfl

/-! ### Derived readings -/

theorem State.count_eq (s : State) (e : Fin 25) (n : Nat) : s.count e n = s.modCore (·.count e n) := rfl

@[simp] theorem Core.count_act (c : Core) (e : Fin 25) (n : Nat) : (c.count e n).act = c.act := rfl
@[simp] theorem Core.count_spm (c : Core) (e : Fin 25) (n : Nat) : (c.count e n).spm = c.spm := rfl

@[simp] theorem State.asParty_self (s : State) : s.asParty s.party = s := by simp [State.asParty]

@[simp] theorem State.asParty_party (s : State) (p : Nat) : (s.asParty p).party = p := by
  by_cases h : s.party = p <;> simp [State.asParty, h]

@[simp] theorem State.asParty_focus (s : State) (p : Nat) (k : CoreKey) : (s.asParty p).focus k = (s.focus k).asParty p := by
  by_cases h : s.party = p <;> by_cases j : k = s.key <;> simp [State.asParty, State.focus, State.coreAt, h, j]

@[simp] theorem State.focus_self (s : State) : s.focus s.key = s := by simp [State.focus]

@[simp] theorem State.coreAt_self (s : State) : s.coreAt s.key = s.core := by simp [State.coreAt]

@[simp] theorem State.modAt_self (s : State) (f : Core → Core) : s.modAt s.key f = s.modCore f := by
  simp [State.modAt, State.modCore]

@[simp] theorem State.modPart_part (s : State) (p : Fin 24) (f : Part → Part) : (s.modPart p f).part p = f (s.part p) := by
  simp [State.part]

theorem State.modPart_other (s : State) (p q : Fin 24) (f : Part → Part) (h : q ≠ p) : (s.modPart p f).part q = s.part q := by
  have : p.val ≠ q.val := fun e => h (Fin.ext e.symm)
  simp [State.part, Vector.getElem_set_ne, this]

/-- An event entered for a later tick stands in the calendar. -/
theorem State.at_entered (s : State) (n : Nat) (e : Instr) (h : s.time < n) : (n, e) ∈ (s.at n e).cal := by
  simp [State.at, Nat.not_le.2 h]

/-- What the calendar held, it still holds. -/
theorem State.at_keeps (s : State) (n : Nat) (e : Instr) : ∀ x ∈ s.cal, x ∈ (s.at n e).cal := by
  intro x hx
  unfold State.at
  split <;> simp [hx]

/-! ### `meshTake` -/

@[simp] theorem State.meshTake_time (s : State) (k : CoreKey) (p : Fin 24) (n : Nat) : (s.meshTake k p n).time = s.time := by
  unfold State.meshTake State.modAt; split <;> rfl
@[simp] theorem State.meshTake_mem (s : State) (k : CoreKey) (p : Fin 24) (n : Nat) : (s.meshTake k p n).mem = s.mem := by
  unfold State.meshTake State.modAt; split <;> rfl
@[simp] theorem State.meshTake_wrote (s : State) (k : CoreKey) (p : Fin 24) (n : Nat) : (s.meshTake k p n).wrote = s.wrote := by
  unfold State.meshTake State.modAt; split <;> rfl
@[simp] theorem State.meshTake_lpddr (s : State) (k : CoreKey) (p : Fin 24) (n : Nat) : (s.meshTake k p n).lpddr = s.lpddr := by
  unfold State.meshTake State.modAt; split <;> rfl
@[simp] theorem State.meshTake_lines (s : State) (k : CoreKey) (p : Fin 24) (n : Nat) : (s.meshTake k p n).lines = s.lines := by
  unfold State.meshTake State.modAt; split <;> rfl
@[simp] theorem State.meshTake_stamp (s : State) (k : CoreKey) (p : Fin 24) (n : Nat) : (s.meshTake k p n).stamp = s.stamp := by
  unfold State.meshTake State.modAt; split <;> rfl
@[simp] theorem State.meshTake_older (s : State) (k : CoreKey) (p : Fin 24) (n : Nat) : (s.meshTake k p n).older = s.older := by
  unfold State.meshTake State.modAt; split <;> rfl
@[simp] theorem State.meshTake_key (s : State) (k : CoreKey) (p : Fin 24) (n : Nat) : (s.meshTake k p n).key = s.key := by
  unfold State.meshTake State.modAt; split <;> rfl
@[simp] theorem State.meshTake_clr (s : State) (k : CoreKey) (p : Fin 24) (n : Nat) : (s.meshTake k p n).clr = s.clr := by
  unfold State.meshTake State.modAt; split <;> rfl
@[simp] theorem State.meshTake_gangs (s : State) (k : CoreKey) (p : Fin 24) (n : Nat) : (s.meshTake k p n).gangs = s.gangs := by
  unfold State.meshTake State.modAt; split <;> rfl
@[simp] theorem State.meshTake_rails (s : State) (k : CoreKey) (p : Fin 24) (n : Nat) : (s.meshTake k p n).rails = s.rails := by
  unfold State.meshTake State.modAt; split <;> rfl
@[simp] theorem State.meshTake_reqs (s : State) (k : CoreKey) (p : Fin 24) (n : Nat) : (s.meshTake k p n).reqs = s.reqs := by
  unfold State.meshTake State.modAt; split <;> rfl
@[simp] theorem State.meshTake_chunks (s : State) (k : CoreKey) (p : Fin 24) (n : Nat) : (s.meshTake k p n).chunks = s.chunks := by
  unfold State.meshTake State.modAt; split <;> rfl
@[simp] theorem State.meshTake_link (s : State) (k : CoreKey) (p : Fin 24) (n : Nat) : (s.meshTake k p n).link = s.link := by
  unfold State.meshTake State.modAt; split <;> rfl
@[simp] theorem State.meshTake_out (s : State) (k : CoreKey) (p : Fin 24) (n : Nat) : (s.meshTake k p n).out = s.out := by
  unfold State.meshTake State.modAt; split <;> rfl
@[simp] theorem State.meshTake_agenda (s : State) (k : CoreKey) (p : Fin 24) (n : Nat) : (s.meshTake k p n).agenda = s.agenda := by
  unfold State.meshTake State.modAt; split <;> rfl
@[simp] theorem State.meshTake_dawn (s : State) (k : CoreKey) (p : Fin 24) (n : Nat) : (s.meshTake k p n).dawn = s.dawn := by
  unfold State.meshTake State.modAt; split <;> rfl
@[simp] theorem State.meshTake_turn (s : State) (k : CoreKey) (p : Fin 24) (n : Nat) : (s.meshTake k p n).turn = s.turn := by
  unfold State.meshTake State.modAt; split <;> rfl
@[simp] theorem State.meshTake_cal (s : State) (k : CoreKey) (p : Fin 24) (n : Nat) : (s.meshTake k p n).cal = s.cal := by
  unfold State.meshTake State.modAt; split <;> rfl
@[simp] theorem State.meshTake_draws (s : State) (k : CoreKey) (p : Fin 24) (n : Nat) : (s.meshTake k p n).draws = s.draws := by
  unfold State.meshTake State.modAt; split <;> rfl
@[simp] theorem State.meshTake_party (s : State) (k : CoreKey) (p : Fin 24) (n : Nat) : (s.meshTake k p n).party = s.party := by
  unfold State.meshTake State.modAt; split <;> rfl
@[simp] theorem State.meshTake_seeds (s : State) (k : CoreKey) (p : Fin 24) (n : Nat) : (s.meshTake k p n).seeds = s.seeds := by
  unfold State.meshTake State.modAt; split <;> rfl
@[simp] theorem State.meshTake_plies (s : State) (k : CoreKey) (p : Fin 24) (n : Nat) : (s.meshTake k p n).plies = s.plies := by
  unfold State.meshTake State.modAt; split <;> rfl

/-- The core in view gives tokens and nothing else. -/
@[simp] theorem State.meshTake_core (s : State) (p : Fin 24) (n : Nat) :
    (s.meshTake s.key p n).core = { s.core with meshTok := some (s.meshTokens s.key p - 16 * n) } := by
  simp [State.meshTake]

theorem State.rd_of_wrote_nil (s : State) (h : s.wrote = []) (a : Nat) : s.rd a = s.mem.read a := by
  simp [State.rd, h]

end Sys2Proof.Machine
end

