-- ==== Sys2Proof/Laws/Slots.lean ====
section
/-! SUPPORT. What committing, waiting and keeping do to the state, said once: the statements about slot instructions cite these
lemmas and unfold none of them. -/

namespace Sys2Proof.Machine

/-- `v` changes only what a slot instruction of `s` may change. -/
def Kept (s v : State) : Prop := keep s v = v

theorem kept_self (s : State) : Kept s s := rfl

theorem kept_modCore (s v : State) (f : Core → Core) (h : Kept s v) : Kept s (v.modCore f) := by
  unfold Kept at *; rw [← h]; rfl

theorem kept_modCtx (s v : State) (f : Ctx → Ctx) (h : Kept s v) : Kept s (v.modCtx f) := by
  unfold Kept at *; rw [← h]; rfl

theorem kept_modPart (s v : State) (p : Fin 24) (f : Part → Part) (h : Kept s v) : Kept s (v.modPart p f) := by
  unfold Kept at *; rw [← h]; rfl

theorem kept_drawn (s v : State) (h : Kept s v) : Kept s v.drawn := by
  unfold Kept at *; rw [← h]; rfl

theorem kept_later (s v : State) (n : Nat) (e : Instr) (h : Kept s v) : Kept s (v.later n e) := by
  unfold Kept at *; rw [← h]; rfl

theorem kept_at (s v : State) (n : Nat) (e : Instr) (h : Kept s v) : Kept s (v.at n e) := by
  unfold Kept at *
  rw [← h]
  unfold State.at
  split <;> rfl

theorem kept_fly (s v : State) (x : Flight) (h : Kept s v) : Kept s (fly x v) := kept_modCtx s v _ h

theorem kept_count (s v : State) (e : Fin 25) (n : Nat) (h : Kept s v) : Kept s (v.count e n) := kept_modCore s v _ h

/-- Committing changes the core in view and its place in the turn only. -/
theorem commit_core (sl : Nat) (s : State) : ∃ c tu, commit sl s = { s with core := c, turn := tu } := by
  unfold commit
  cases h : s.core.act.bun with
  | none => exact ⟨s.core, s.turn, rfl⟩
  | some b =>
    simp only
    split
    · exact ⟨_, _, rfl⟩
    · exact ⟨_, s.turn, rfl⟩

theorem kept_commit (s v : State) (sl : Nat) (h : Kept s v) : Kept s (commit sl v) := by
  obtain ⟨c, tu, hc⟩ := commit_core sl v
  unfold Kept at *
  rw [hc, ← h]
  rfl

/-- Only the operand snapshot and the owned windows change for the slot that runs next. -/
theorem Ctx.presents_eq (c : Ctx) : ∃ sn wi, c.presents = { c with snap := sn, wins := wi } := by
  unfold Ctx.presents
  split
  · exact ⟨c.snap, c.wins, rfl⟩
  · split
    · exact ⟨_, _, rfl⟩
    · exact ⟨c.snap, c.wins, rfl⟩

/-- Slot `sl` commits with the effect that the state shows. -/
theorem finishes_commit (sl : Nat) (s : State) : Finishes sl s (commit sl s) := by
  unfold commit Finishes
  cases h : s.core.act.bun with
  | none =>
    refine ⟨s.core.act.phase, s.core.act.snap, s.core.act.wins, s.core.act.stage, s.core.act.vcyc, s.core.ev, s.turn, ?_⟩
    have : s.core.act.bun.map (Bundle.finished sl) = s.core.act.bun := by rw [h]; rfl
    rw [h] at this
    simp only [Option.map_none]
    rw [← h]
  | some b =>
    simp only [Option.map_some]
    split
    · exact ⟨_, _, _, _, _, _, _, rfl⟩
    · obtain ⟨sn, wi, hp⟩ := Ctx.presents_eq { s.core.act with bun := some (Bundle.finished sl b), stage := none }
      exact ⟨s.core.act.phase, sn, wi, none, s.core.act.vcyc, _, s.turn, by erw [hp]; rfl⟩

/-- A slot instruction whose operation commits with the effect `u` completes with it. -/
theorem completes_of (i : Instr) (s u : State) (sl : Nat) (h : exec i s = .next (keep s (commit sl u))) (k : Kept s u) :
    Completes i s sl u := by
  refine ⟨_, h, ?_⟩
  rw [show keep s (commit sl u) = commit sl u from kept_commit s u sl k]
  exact finishes_commit sl u

/-- With a false guard the slot commits and nothing else happens (R37). -/
theorem slotOp_false (sl : Nat) (g : Guard) (f : State → State) (s : State) (h : s.guard g = false) :
    slotOp sl g f s = .next (keep s (commit sl s)) := by
  simp [slotOp, h]

/-- With a true guard the operation runs (R37). -/
theorem slotOp_true (sl : Nat) (g : Guard) (f : State → State) (s : State) (h : s.guard g = true) :
    slotOp sl g f s = .next (keep s (f s)) := by
  simp [slotOp, h]

/-- A result of latency `lat` is in flight and the slot has committed (R43). -/
theorem land_eq (sl lat : Nat) (latch : Option Vec) (ws : List RegWrite) (flags : Word) (s : State) :
    land sl lat latch ws flags s = commit sl (s.flying sl lat latch ws flags) := rfl

theorem kept_flying (s v : State) (sl lat : Nat) (latch : Option Vec) (ws : List RegWrite) (flags : Word) (h : Kept s v) :
    Kept s (v.flying sl lat latch ws flags) := kept_modCtx s v _ h

/-- A scalar operation that lands a result completes with it. -/
theorem gives_of (i : Instr) (s : State) (sl lat : Nat) (wb : Bool) (d : Fin 64) (x : Word)
    (h : exec i s = .next (keep s (landS sl lat wb d x s))) : Gives i s sl lat wb d x :=
  completes_of i s _ sl h (kept_flying s s _ _ _ _ _ (kept_self s))

/-- Waiting changes the counters of the core in view and drops the slots that have not run. -/
theorem stall_core (s : State) : ∃ ev fr ag,
    stall s = { s with agenda := ag, core := { s.core with ev := ev, act := { s.core.act with frzt := fr } } } := by
  have key (late : Bool) : ∃ ev fr ag,
      ({ s with core := if late then ({ s.core with act := { s.core.act with frzt := s.core.act.frzt + 1 } }).count 3 1
                        else s.core } : State).dropSlots =
        { s with agenda := ag, core := { s.core with ev := ev, act := { s.core.act with frzt := fr } } } := by
    cases late
    · exact ⟨s.core.ev, s.core.act.frzt, s.agenda.dropWhile isSlot, rfl⟩
    · exact ⟨(s.core.count 3 1).ev, s.core.act.frzt + 1, s.agenda.dropWhile isSlot, rfl⟩
  exact key _

theorem kept_stall (s v : State) (h : Kept s v) : Kept s (stall v) := by
  obtain ⟨ev, fr, ag, hc⟩ := stall_core v
  unfold Kept at *
  rw [hc, ← h]
  rfl

/-- An event leaves the bytes of the state it has reached. -/
theorem settle_rd (s t : State) (hm : s.mem.wf = true) (ht : t.mem = s.mem) (a : Nat) : (settle s t).rd a = t.rd a := by
  cases h : t.wrote.find? (fun c => c.1 == a) <;>
    simp [State.rd, settle_wrote, settle_mem, Memory.read_writes _ _ _ hm, ht, h]

/-- Every event leaves a sound state. -/
theorem settle_sound (s t : State) (h : s.sound) : (settle s t).sound :=
  ⟨Memory.writes_wf _ _ h.1, rfl⟩

/-- Every slot instruction leaves a sound state. -/
theorem keep_sound (s t : State) (h : s.sound) : (keep s t).sound := h

end Sys2Proof.Machine
end

