-- ==== Sys2Proof/Tests/Slice0.lean ====
section
/-! SUPPORT. The model's own tests: ill-formed terms that each check refuses, words of every instruction, and for each statement a
concrete state and operands that meet the hypotheses of its clauses. -/

namespace Sys2Proof.Tests

set_option Elab.async false

open Sys2Proof Sys2Proof.Machine

/-! ### Well-formedness -/

def always : Guard := ⟨false, 0⟩
def never : Guard := ⟨true, 0⟩

/-- Guards, scalar operands and numbers: one term for each check, refused, beside one that passes. -/
theorem test_wf_scalar :
    (Instr.add .s0 ⟨never, true, 1, .s 1, .s 2⟩).wf = false ∧ (Instr.add .s0 ⟨⟨true, 1⟩, true, 1, .s 1, .s 2⟩).wf = true ∧
    (Instr.srd ⟨always, 1, 6⟩).wf = false ∧ (Instr.swr ⟨always, 1, 0x26⟩).wf = false ∧ (Instr.srd ⟨always, 1, 0x25⟩).wf = true ∧
    (Instr.eret never).wf = false ∧ (Instr.qfence ⟨always, 0⟩).wf = false ∧ (Instr.qfence ⟨always, 0x40⟩).wf = true ∧
    (Instr.loop ⟨always, .s 1, 0⟩).wf = false ∧ (Instr.loop ⟨always, .s 1, 16383⟩).wf = true ∧
    (Instr.nop 3 never).wf = true := by decide

/-- Vector operands and types. -/
theorem test_wf_vector :
    (Instr.vadd ⟨always, .l 3, .v 1, .v 2, .f32⟩).wf = false ∧ (Instr.vadd ⟨always, .v 3, .none, .v 2, .f32⟩).wf = false ∧
    (Instr.vadd ⟨always, .v 3, .v 1, .none, .f32⟩).wf = false ∧ (Instr.vadd ⟨always, .none, .l 1, .f 2, .f32⟩).wf = true ∧
    (Instr.vmaxu ⟨always, .v 3, .v 1, .v 2, .bf16⟩).wf = false ∧ (Instr.vexp2 ⟨always, .v 3, .v 1, .i8⟩).wf = false ∧
    (Instr.vidx ⟨always, .v 3, .v 1, .f16⟩).wf = false ∧ (Instr.vcmp ⟨always, .un, 1, .v 1, .v 2, .i32⟩).wf = false ∧
    (Instr.vcmp ⟨always, .un, 1, .v 1, .v 2, .f32⟩).wf = true ∧ (Instr.vcmpu ⟨always, .eq, 1, .v 1, .v 2, .f32⟩).wf = false ∧
    (Instr.vbc ⟨always, .l 0, .s 1, .i8⟩).wf = false ∧ (Instr.vmwr ⟨always, .none, ⟨.row, 1⟩, 2⟩).wf = false ∧
    (Instr.vmrd ⟨always, .l 2, ⟨.row, 1⟩, 2⟩).wf = false ∧ (Instr.vred ⟨always, .v 1, .none, .add, .f32⟩).wf = false := by decide

/-- The map registers of VQNT (R177) and the parts of VCVT (R175), at the edges of what they admit. -/
theorem test_wf_conversions :
    (Instr.vqnt ⟨always, .v 4, .v 2, 4, .e4m3⟩).wf = false ∧ (Instr.vqnt ⟨always, .v 5, .v 2, 4, .e4m3⟩).wf = true ∧
    (Instr.vqnt ⟨always, .v 5, .v 2, 4, .e2m1⟩).wf = false ∧ (Instr.vqnt ⟨always, .v 6, .v 2, 5, .e2m1⟩).wf = false ∧
    (Instr.vqnt ⟨always, .v 6, .v 2, 4, .e2m1⟩).wf = true ∧ (Instr.vcvt ⟨always, .rne, 1, 2, .e4m3, .f32, 4⟩).wf = false ∧
    (Instr.vcvt ⟨always, .rne, 1, 2, .e4m3, .f32, 3⟩).wf = true ∧ (Instr.vcvt ⟨always, .rne, 1, 2, .i32, .f32, 1⟩).wf = false ∧
    (Instr.vcvt ⟨always, .rz, 1, 2, .e2m1, .f32, 7⟩).wf = true := by decide

/-- Tile and rail operands. -/
theorem test_wf_tile :
    (Instr.mcfg ⟨always, .s 1, .s 0, false, 5⟩).wf = false ∧ (Instr.mcfg ⟨always, .s 1, .s 2, false, 3⟩).wf = false ∧
    (Instr.mcfg ⟨always, .s 1, .s 2, true, 4⟩).wf = false ∧ (Instr.mcfg ⟨always, .s 1, .s 2, true, 15⟩).wf = false ∧
    (Instr.mcfg ⟨always, .s 1, .s 2, true, 14⟩).wf = true ∧ (Instr.mld ⟨always, .s 1, .s 2, ⟨.dia, 1⟩⟩).wf = false ∧
    (Instr.mst ⟨always, .s 1, .s 2, ⟨.adia, 1⟩⟩).wf = false ∧ (Instr.mld ⟨always, .s 1, .s 2, ⟨.col, 1⟩⟩).wf = true ∧
    (Instr.msca ⟨always, true, 1, true, 2⟩).wf = false ∧ (Instr.msca ⟨always, true, 0, true, 2⟩).wf = true ∧
    (Instr.xsnd ⟨always, .none, false, 0⟩).wf = false ∧ (Instr.xsel ⟨always, .l 1, false, 0⟩).wf = false ∧
    (Instr.xsel ⟨always, .f 1, true, 16383⟩).wf = true := by decide

/-! ### Words -/

/-- NOP, and a never-executing word of any class (R39, R54). -/
theorem test_words_nop : decodeSlot 3 0 = some (.nop 3 ⟨false, 0⟩) ∧ decodeSlot 4 0xFFFFFFFF = none ∧
    decodeSlot 5 0xFF1FFFFF = some (.nop 5 ⟨true, 0⟩) ∧ decodeSlot 2 0x01000000 = some (.nop 2 ⟨true, 0⟩) := by
  refine ⟨?_, ?_, ?_, ?_⟩ <;> rfl

/-- Words of the scalar slot S0, their fields laid out by R36 and R49 with the opcodes of R55-R61; most are the spec's own examples. -/
theorem test_words_s0 :
    decodeSlot 0 0x0453A946 = some (.sub .s0 ⟨⟨false, 2⟩, true, 14, .imm 2, .l 6⟩) ∧
    decodeSlot 0 0x096550D9 = some (.mul ⟨⟨true, 3⟩, false, 21, .s 33, .imm 9⟩) ∧
    decodeSlot 0 0x0A972214 = some (.mulh ⟨⟨false, 4⟩, true, 28, .l 4, .s 20⟩) ∧
    decodeSlot 0 0x0DB8EAC9 = some (.div ⟨⟨true, 5⟩, true, 35, .imm 5, .l 9⟩) ∧
    decodeSlot 0 0x0ECA8152 = some (.divu ⟨⟨false, 6⟩, false, 42, .s 2, .imm 2⟩) ∧
    decodeSlot 0 0x11FC63A3 = some (.rem ⟨⟨true, 7⟩, true, 49, .l 7, .s 35⟩) ∧
    decodeSlot 0 0x123E2C40 = some (.remu ⟨⟨false, 1⟩, true, 56, .imm 8, .l 0⟩) ∧
    decodeSlot 0 0x1651A532 = some (.or .s0 ⟨⟨false, 2⟩, true, 6, .l 10, .s 50⟩) ∧
    decodeSlot 0 0x1A850254 = some (.andn .s0 ⟨⟨false, 4⟩, false, 20, .s 4, .imm 4⟩) ∧
    decodeSlot 0 0x1ED8AF46 = some (.shr .s0 ⟨⟨false, 6⟩, true, 34, .imm 14, .l 6⟩) ∧
    decodeSlot 0 0x223C2210 = some (.rot .s0 ⟨⟨false, 1⟩, true, 48, .l 4, .s 16⟩) ∧
    decodeSlot 0 0x264F8356 = some (.max .s0 ⟨⟨false, 2⟩, false, 62, .s 6, .imm 6⟩) ∧
    decodeSlot 0 0x2A932A40 = some (.maxu .s0 ⟨⟨false, 4⟩, true, 12, .imm 4, .l 0⟩) ∧
    decodeSlot 0 0x3AD6A52E = some (.bfi .s0 ⟨⟨false, 6⟩, true, 26, .l 10, .s 46⟩) ∧
    decodeSlot 0 0x3DF86BC3 = some (.mada ⟨⟨true, 7⟩, true, 33, .imm 7, .l 3⟩) ∧
    decodeSlot 0 0x06128501 = some (.addi .s0 ⟨⟨false, 0⟩, true, 10, .s 10, 1⟩) ∧
    decodeSlot 0 0x31F86180 = some (.clz .s0 ⟨⟨true, 7⟩, true, 33, .l 3⟩) ∧
    decodeSlot 0 0x34113FFF = some (.movi .s0 ⟨⟨false, 0⟩, true, 4, 0x3FFF⟩) ∧
    decodeSlot 0 0x400000D1 = some (.pand .s0 ⟨⟨false, 0⟩, 3, 2, 1⟩) ∧
    decodeSlot 0 0x456001CE = some (.pxor .s0 ⟨⟨true, 3⟩, 7, 1, 6⟩) ∧
    decodeSlot 0 0x60020000 = some (.srd ⟨⟨false, 0⟩, 4, 0⟩) ∧
    decodeSlot 0 0x621F8025 = some (.swr ⟨⟨false, 0⟩, 63, 0x25⟩) := by
  refine ⟨?_, ?_, ?_, ?_, ?_, ?_, ?_, ?_, ?_, ?_, ?_, ?_, ?_, ?_, ?_, ?_, ?_, ?_, ?_, ?_, ?_, ?_⟩ <;> rfl

/-- Words of the scalar slot S1, their fields laid out by R36 and R49 with the opcodes of R55-R61; most are the spec's own examples. -/
theorem test_words_s1 :
    decodeSlot 1 0x0331E085 = some (.add .s1 ⟨⟨true, 1⟩, true, 7, .l 1, .s 5⟩) ∧
    decodeSlot 1 0x152FD1DB = some (.and .s1 ⟨⟨true, 1⟩, false, 63, .s 35, .imm 11⟩) ∧
    decodeSlot 1 0x19736DC3 = some (.xor .s1 ⟨⟨true, 3⟩, true, 13, .imm 11, .l 3⟩) ∧
    decodeSlot 1 0x1DB6E081 = some (.shl .s1 ⟨⟨true, 5⟩, true, 27, .l 1, .s 1⟩) ∧
    decodeSlot 1 0x21EA52DD = some (.sar .s1 ⟨⟨true, 7⟩, false, 41, .s 37, .imm 13⟩) ∧
    decodeSlot 1 0x253DE8C9 = some (.min .s1 ⟨⟨true, 1⟩, true, 55, .imm 1, .l 9⟩) ∧
    decodeSlot 1 0x2971639F = some (.minu .s1 ⟨⟨true, 3⟩, true, 5, .l 7, .s 31⟩) ∧
    decodeSlot 1 0x39A4D3DF = some (.bfx .s1 ⟨⟨true, 5⟩, false, 19, .s 39, .imm 15⟩) ∧
    decodeSlot 1 0x2C0C8257 = some (.cmp .s1 ⟨⟨false, 0⟩, .ltu, 2, .s 4, .imm 7⟩) ∧
    decodeSlot 1 0x2E0C824A = some (.sel .s1 ⟨⟨false, 0⟩, 3, 8, 9, 10⟩) ∧
    decodeSlot 1 0x32088480 = some (.popc .s1 ⟨⟨false, 0⟩, false, 34, .s 9⟩) ∧
    decodeSlot 1 0x36113C00 = some (.movh .s1 ⟨⟨false, 0⟩, true, 4, 0x3C00⟩) ∧
    decodeSlot 1 0x42000167 = some (.por .s1 ⟨⟨false, 0⟩, 5, 4, 7⟩) ∧
    decodeSlot 1 0x46000198 = some (.pnot .s1 ⟨⟨false, 0⟩, 6, 3⟩) := by
  refine ⟨?_, ?_, ?_, ?_, ?_, ?_, ?_, ?_, ?_, ?_, ?_, ?_, ?_, ?_⟩ <;> rfl

/-- Words of the memory slot, their fields laid out by R36 and R49 with the opcodes of R55-R61; most are the spec's own examples. -/
theorem test_words_s2 :
    decodeSlot 2 0x020A143D = some (.lds ⟨⟨false, 0⟩, false, 40, 20, 0, 61, .b⟩) ∧
    decodeSlot 2 0x221C897D = some (.ld ⟨⟨false, 0⟩, true, 50, 9, 1, 61, .b⟩) ∧
    decodeSlot 2 0x041A557E = some (.lds ⟨⟨false, 0⟩, true, 41, 21, 1, 62, .bu⟩) ∧
    decodeSlot 2 0x240CCABE = some (.ld ⟨⟨false, 0⟩, false, 51, 10, 2, 62, .bu⟩) ∧
    decodeSlot 2 0x060A96BF = some (.lds ⟨⟨false, 0⟩, false, 42, 22, 2, 63, .h⟩) ∧
    decodeSlot 2 0x261D0BFF = some (.ld ⟨⟨false, 0⟩, true, 52, 11, 3, 63, .h⟩) ∧
    decodeSlot 2 0x081AD7C0 = some (.lds ⟨⟨false, 0⟩, true, 43, 23, 3, 0, .hu⟩) ∧
    decodeSlot 2 0x280D4C00 = some (.ld ⟨⟨false, 0⟩, false, 53, 12, 0, 0, .hu⟩) ∧
    decodeSlot 2 0x0A0B1801 = some (.lds ⟨⟨false, 0⟩, false, 44, 24, 0, 1, .w⟩) ∧
    decodeSlot 2 0x2A1D8D41 = some (.ld ⟨⟨false, 0⟩, true, 54, 13, 1, 1, .w⟩) ∧
    decodeSlot 2 0x0C1B5942 = some (.lds ⟨⟨false, 0⟩, true, 45, 25, 1, 2, .wu⟩) ∧
    decodeSlot 2 0x2C0DCE82 = some (.ld ⟨⟨false, 0⟩, false, 55, 14, 2, 2, .wu⟩) ∧
    decodeSlot 2 0x0E0B9A83 = some (.lds ⟨⟨false, 0⟩, false, 46, 26, 2, 3, .d⟩) ∧
    decodeSlot 2 0x2E1E0FC3 = some (.ld ⟨⟨false, 0⟩, true, 56, 15, 3, 3, .d⟩) ∧
    decodeSlot 2 0x10A07C20 = some (.sts ⟨⟨false, 5⟩, 1, 60, 0, 32, .b⟩) ∧
    decodeSlot 2 0x314786DF = some (.st ⟨⟨true, 2⟩, 30, 6, 3, 31, .b⟩) ∧
    decodeSlot 2 0x12A0BD61 = some (.sts ⟨⟨false, 5⟩, 2, 61, 1, 33, .h⟩) ∧
    decodeSlot 2 0x3347C79E = some (.st ⟨⟨true, 2⟩, 31, 7, 2, 30, .h⟩) ∧
    decodeSlot 2 0x14A0FEA2 = some (.sts ⟨⟨false, 5⟩, 3, 62, 2, 34, .w⟩) ∧
    decodeSlot 2 0x3548085D = some (.st ⟨⟨true, 2⟩, 32, 8, 1, 29, .w⟩) ∧
    decodeSlot 2 0x16A13FE3 = some (.sts ⟨⟨false, 5⟩, 4, 63, 3, 35, .d⟩) ∧
    decodeSlot 2 0x3748491C = some (.st ⟨⟨true, 2⟩, 33, 9, 0, 28, .d⟩) ∧
    decodeSlot 2 0x1810C901 = some (.ldv ⟨⟨false, 0⟩, true, 3, 9, 0, 1⟩) ∧
    decodeSlot 2 0x1A07D1BF = some (.stv ⟨⟨false, 0⟩, 31, 17, 2, 63⟩) ∧
    decodeSlot 2 0x2E110682 = some (.ld ⟨⟨false, 0⟩, true, 4, 6, 2, 2, .d⟩) ∧
    decodeSlot 2 0x3401063F = some (.st ⟨⟨false, 0⟩, 4, 6, 0, 63, .w⟩) ∧
    decodeSlot 2 0x0A118702 = some (.lds ⟨⟨false, 0⟩, true, 6, 7, 0, 2, .w⟩) ∧
    decodeSlot 2 0x40020D20 = some (.lda ⟨⟨false, 0⟩, 4, 6, .device, true, 0⟩) ∧
    decodeSlot 2 0x42039041 = some (.stl ⟨⟨false, 0⟩, 7, 8, .cluster, false, 1⟩) ∧
    decodeSlot 2 0x50019800 = some (.atom ⟨⟨false, 0⟩, .add, 3, 12, .core, .rlx, false⟩) ∧
    decodeSlot 2 0x52021A58 = some (.atom ⟨⟨false, 0⟩, .min, 4, 13, .cluster, .acq, true⟩) ∧
    decodeSlot 2 0x54029CA0 = some (.atom ⟨⟨false, 0⟩, .max, 5, 14, .ply, .rel, false⟩) ∧
    decodeSlot 2 0x56031EF8 = some (.atom ⟨⟨false, 0⟩, .and, 6, 15, .stack, .ar, true⟩) ∧
    decodeSlot 2 0x5803A100 = some (.atom ⟨⟨false, 0⟩, .or, 7, 16, .device, .rlx, false⟩) ∧
    decodeSlot 2 0x5A042358 = some (.atom ⟨⟨false, 0⟩, .xor, 8, 17, .stand, .acq, true⟩) ∧
    decodeSlot 2 0x5C04A420 = some (.atom ⟨⟨false, 0⟩, .xchg, 9, 18, .core, .rel, false⟩) ∧
    decodeSlot 2 0x5C020D38 = some (.atom ⟨⟨false, 0⟩, .xchg, 4, 6, .device, .ar, true⟩) ∧
    decodeSlot 2 0x6C020C3B = some (.cas ⟨⟨false, 0⟩, false, true, .rel, 4, 6, 7, .stack⟩) ∧
    decodeSlot 2 0x7604945D = some (.cas ⟨⟨false, 0⟩, true, false, .ar, 9, 10, 11, .stand⟩) ∧
    decodeSlot 2 0x80140000 = some (.phase ⟨⟨false, 0⟩, .stand⟩) ∧
    decodeSlot 2 0x82040000 = some (.fence ⟨⟨false, 0⟩, .cluster⟩) ∧
    decodeSlot 2 0x90120200 = some (.tagl ⟨⟨false, 0⟩, true, 8, .s 4⟩) ∧
    decodeSlot 2 0x92000209 = some (.tagi ⟨⟨false, 0⟩, .s 4, .s 9⟩) ∧
    decodeSlot 2 0x94000200 = some (.tagx ⟨⟨false, 0⟩, .s 4⟩) ∧
    decodeSlot 2 0x96000200 = some (.rgwb ⟨⟨false, 0⟩, .s 4⟩) := by
  refine ⟨?_, ?_, ?_, ?_, ?_, ?_, ?_, ?_, ?_, ?_, ?_, ?_, ?_, ?_, ?_, ?_, ?_, ?_, ?_, ?_, ?_, ?_, ?_, ?_, ?_, ?_, ?_, ?_, ?_, ?_, ?_, ?_, ?_, ?_, ?_, ?_, ?_, ?_, ?_, ?_, ?_, ?_, ?_, ?_, ?_⟩ <;> rfl

/-- Words of the vector slot, their fields laid out by R36 and R49 with the opcodes of R55-R61; most are the spec's own examples. -/
theorem test_words_s3 :
    decodeSlot 3 0x02418311 = some (.vadd ⟨⟨false, 2⟩, .v 3, .v 1, .f 2, .bf16⟩) ∧
    decodeSlot 3 0x05F3F6F8 = some (.vsub ⟨⟨true, 7⟩, .f 7, .l 11, .v 31, .f32⟩) ∧
    decodeSlot 3 0x061F8412 = some (.vmul ⟨⟨false, 0⟩, .none, .v 2, .v 2, .f16⟩) ∧
    decodeSlot 3 0x092101B0 = some (.vfma ⟨⟨true, 1⟩, .v 2, .v 0, .l 6, .f32⟩) ∧
    decodeSlot 3 0x0A04C046 = some (.vmax ⟨⟨false, 0⟩, .v 9, .f 0, .v 8, .i8⟩) ∧
    decodeSlot 3 0x0C051139 = some (.vmin ⟨⟨false, 0⟩, .v 10, .v 8, .f 7, .bf16⟩) ∧
    decodeSlot 3 0x0E00841C = some (.vmaxu ⟨⟨false, 0⟩, .v 1, .v 2, .v 3, .i32⟩) ∧
    decodeSlot 3 0x10020A35 = some (.vminu ⟨⟨false, 0⟩, .v 4, .v 5, .v 6, .i16⟩) ∧
    decodeSlot 3 0x3603904E = some (.vshl ⟨⟨false, 0⟩, .v 7, .v 8, .v 9, .i8⟩) ∧
    decodeSlot 3 0x3805986C = some (.vshr ⟨⟨false, 0⟩, .v 11, .v 12, .v 13, .i32⟩) ∧
    decodeSlot 3 0x3A071E85 = some (.vsar ⟨⟨false, 0⟩, .v 14, .v 15, .v 16, .i16⟩) ∧
    decodeSlot 3 0x7208A49E = some (.vperm ⟨⟨false, 0⟩, .v 17, .v 18, .v 19, .i8⟩) ∧
    decodeSlot 3 0x12018800 = some (.vabs ⟨⟨false, 0⟩, .v 3, .v 4, .f32⟩) ∧
    decodeSlot 3 0x1402E004 = some (.vneg ⟨⟨false, 0⟩, .v 5, .l 0, .i32⟩) ∧
    decodeSlot 3 0x60030E01 = some (.vexp2 ⟨⟨false, 0⟩, .v 6, .v 7, .bf16⟩) ∧
    decodeSlot 3 0x62041202 = some (.vrcp ⟨⟨false, 0⟩, .v 8, .v 9, .f16⟩) ∧
    decodeSlot 3 0x6411C800 = some (.vrsq ⟨⟨false, 0⟩, .f 3, .f 4, .f32⟩) ∧
    decodeSlot 3 0x760A2A05 = some (.vidx ⟨⟨false, 0⟩, .v 20, .v 21, .i16⟩) ∧
    decodeSlot 3 0x20098311 = some (.vcmp ⟨⟨false, 0⟩, .lt, 3, .v 1, .f 2, .bf16⟩) ∧
    decodeSlot 3 0x2019082A = some (.vcmp ⟨⟨false, 0⟩, .un, 2, .v 4, .v 5, .f16⟩) ∧
    decodeSlot 3 0x22178C4E = some (.vcmpu ⟨⟨false, 0⟩, .ge, 7, .v 6, .v 9, .i8⟩) ∧
    decodeSlot 3 0x2400841D = some (.vsel ⟨⟨false, 0⟩, .v 1, .v 2, .v 3, 5⟩) ∧
    decodeSlot 3 0x300B0308 = some (.vand ⟨⟨false, 0⟩, .v 22, .v 1, .f 1⟩) ∧
    decodeSlot 3 0x320B8510 = some (.vor ⟨⟨false, 0⟩, .v 23, .v 2, .f 2⟩) ∧
    decodeSlot 3 0x340C0718 = some (.vxor ⟨⟨false, 0⟩, .v 24, .v 3, .f 3⟩) ∧
    decodeSlot 3 0x40020983 = some (.vcvt ⟨⟨false, 0⟩, .rne, 2, 1, .e4m3, .f32, 3⟩) ∧
    decodeSlot 3 0x421C04B8 = some (.vcvt ⟨⟨false, 0⟩, .rz, 28, 0, .i32, .i8, 0⟩) ∧
    decodeSlot 3 0x441D1901 = some (.vcvt ⟨⟨false, 0⟩, .rdn, 29, 3, .bf16, .f32, 1⟩) ∧
    decodeSlot 3 0x461E36E0 = some (.vcvt ⟨⟨false, 0⟩, .rup, 30, 6, .ui32, .ui16, 0⟩) ∧
    decodeSlot 3 0x481F4A81 = some (.vcvt ⟨⟨false, 0⟩, .rsr, 31, 9, .e2m1, .f32, 1⟩) ∧
    decodeSlot 3 0x50008422 = some (.vqnt ⟨⟨false, 0⟩, .v 1, .v 2, 4, .e2m1⟩) ∧
    decodeSlot 3 0x52030429 = some (.vscl ⟨⟨false, 0⟩, .v 6, .v 2, 5, .e5m2⟩) ∧
    decodeSlot 3 0x70049000 = some (.vred ⟨⟨false, 0⟩, .v 9, .v 8, .add, .f32⟩) ∧
    decodeSlot 3 0x70018E1E = some (.vred ⟨⟨false, 0⟩, .v 3, .v 7, .amax, .i8⟩) ∧
    decodeSlot 3 0x74028304 = some (.vbc ⟨⟨false, 0⟩, .v 5, .s 3, .i32⟩) ∧
    decodeSlot 3 0x80024C50 = some (.vmrd ⟨⟨false, 0⟩, .v 4, ⟨.dia, 3⟩, 5⟩) ∧
    decodeSlot 3 0x82197FE0 = some (.vmwr ⟨⟨false, 0⟩, .l 2, ⟨.adia, 7⟩, 62⟩) := by
  refine ⟨?_, ?_, ?_, ?_, ?_, ?_, ?_, ?_, ?_, ?_, ?_, ?_, ?_, ?_, ?_, ?_, ?_, ?_, ?_, ?_, ?_, ?_, ?_, ?_, ?_, ?_, ?_, ?_, ?_, ?_, ?_, ?_, ?_, ?_, ?_, ?_, ?_⟩ <;> rfl

/-- Words of the tile slot, their fields laid out by R36 and R49 with the opcodes of R55-R61; most are the spec's own examples. -/
theorem test_words_s4 :
    decodeSlot 4 0x02010000 = some (.mcfg ⟨⟨false, 0⟩, .s 4, .s 0, false, 0⟩) ∧
    decodeSlot 4 0x02014003 = some (.mcfg ⟨⟨false, 0⟩, .s 5, .s 0, false, 3⟩) ∧
    decodeSlot 4 0x02010298 = some (.mcfg ⟨⟨false, 0⟩, .s 4, .s 5, true, 8⟩) ∧
    decodeSlot 4 0x04018382 = some (.mld ⟨⟨false, 0⟩, .s 6, .s 7, ⟨.row, 2⟩⟩) ∧
    decodeSlot 4 0x0601838D = some (.mst ⟨⟨false, 0⟩, .s 6, .s 7, ⟨.col, 5⟩⟩) ∧
    decodeSlot 4 0x060229C1 = some (.mstPs ⟨⟨false, 0⟩, .s 8, .imm 3, true⟩) ∧
    decodeSlot 4 0x08000006 = some (.mz ⟨⟨false, 0⟩, 6⟩) ∧
    decodeSlot 4 0x08000041 = some (.mzPs ⟨⟨false, 0⟩, true⟩) ∧
    decodeSlot 4 0x0A028580 = some (.mta ⟨⟨false, 0⟩, .s 10, .s 11, false, false, false, false, 0⟩) ∧
    decodeSlot 4 0x0A0285A8 = some (.mta ⟨⟨false, 0⟩, .s 10, .s 11, false, true, false, true, 0⟩) ∧
    decodeSlot 4 0x0A004156 = some (.mta ⟨⟨false, 0⟩, .s 1, .s 2, true, false, true, false, 3⟩) ∧
    decodeSlot 4 0x0C00417A = some (.mtg ⟨⟨false, 0⟩, .s 1, .s 2, true, true, 1⟩) ∧
    decodeSlot 4 0x0E000054 = some (.msca ⟨⟨false, 0⟩, true, 1, false, 4⟩) ∧
    decodeSlot 4 0x10000000 = some (.mwt ⟨⟨false, 0⟩, 0⟩) ∧
    decodeSlot 4 0x12130680 = some (.mcnt ⟨⟨false, 0⟩, true, 12, .s 13⟩) := by
  refine ⟨?_, ?_, ?_, ?_, ?_, ?_, ?_, ?_, ?_, ?_, ?_, ?_, ?_, ?_, ?_⟩ <;> rfl

/-- Words of the transfer slot, their fields laid out by R36 and R49 with the opcodes of R55-R61; most are the spec's own examples. -/
theorem test_words_s5 :
    decodeSlot 5 0x02000205 = some (.copy ⟨⟨false, 0⟩, .s 4, .s 5⟩) ∧
    decodeSlot 5 0x04000250 = some (.copyg ⟨⟨false, 0⟩, .s 4, .imm 0⟩) ∧
    decodeSlot 5 0x06000205 = some (.copys ⟨⟨false, 0⟩, .s 4, .s 5⟩) ∧
    decodeSlot 5 0x08000205 = some (.copyr ⟨⟨false, 0⟩, .s 4, .s 5⟩) ∧
    decodeSlot 5 0x10080200 = some (.fbind ⟨⟨false, 0⟩, 2, .s 4, .s 0⟩) ∧
    decodeSlot 5 0x12080000 = some (.fdrop ⟨⟨false, 0⟩, 2⟩) ∧
    decodeSlot 5 0x20006809 = some (.hset ⟨⟨false, 0⟩, 3, false, .s 9⟩) ∧
    decodeSlot 5 0x2200F400 = some (.hwait ⟨⟨false, 0⟩, 7, .full, true⟩) ∧
    decodeSlot 5 0x24006000 = some (.hrel ⟨⟨false, 0⟩, 3⟩) ∧
    decodeSlot 5 0x201FF851 = some (.hset ⟨⟨false, 0⟩, 255, true, .imm 1⟩) ∧
    decodeSlot 5 0x30000015 = some (.qfence ⟨⟨false, 0⟩, 0x15⟩) ∧
    decodeSlot 5 0x32120250 = some (.tenq ⟨⟨false, 0⟩, true, 8, .s 4, .imm 0⟩) ∧
    decodeSlot 5 0x340004D1 = some (.tsig ⟨⟨false, 0⟩, .s 9, .imm 1⟩) ∧
    decodeSlot 5 0x40060000 = some (.bar ⟨⟨false, 0⟩, 3⟩) ∧
    decodeSlot 5 0x421E0000 = some (.bara ⟨⟨false, 0⟩, 15⟩) ∧
    decodeSlot 5 0x44050000 = some (.barw ⟨⟨false, 0⟩, 2, true⟩) ∧
    decodeSlot 5 0x4600003F = some (.pause ⟨⟨false, 0⟩, 63⟩) ∧
    decodeSlot 5 0x50122F80 = some (.role ⟨⟨false, 0⟩, true, 8, .imm 15⟩) ∧
    decodeSlot 5 0x52000002 = some (.xph ⟨⟨false, 0⟩, 2⟩) ∧
    decodeSlot 5 0x5401800A = some (.xsnd ⟨⟨false, 0⟩, .v 3, false, 10⟩) ∧
    decodeSlot 5 0x56034013 = some (.xsel ⟨⟨false, 0⟩, .v 6, true, 19⟩) ∧
    decodeSlot 5 0x5642800F = some (.xsel ⟨⟨false, 2⟩, .v 5, false, 15⟩) ∧
    decodeSlot 5 0x60000205 = some (.cst ⟨⟨false, 0⟩, .s 4, .s 5⟩) ∧
    decodeSlot 5 0x62118200 = some (.cld ⟨⟨false, 0⟩, true, 6, .s 4⟩) ∧
    decodeSlot 5 0x6410C205 = some (.cxch ⟨⟨false, 0⟩, true, 3, .s 4, .s 5⟩) ∧
    decodeSlot 5 0x70120200 = some (.pub ⟨⟨false, 0⟩, true, 8, .s 4⟩) ∧
    decodeSlot 5 0x72124205 = some (.land ⟨⟨false, 0⟩, true, 9, .s 4, .s 5⟩) ∧
    decodeSlot 5 0x74000200 = some (.decl ⟨⟨false, 0⟩, .s 4⟩) ∧
    decodeSlot 5 0x76000200 = some (.recl ⟨⟨false, 0⟩, .s 4⟩) ∧
    decodeSlot 5 0x78128200 = some (.nstat ⟨⟨false, 0⟩, true, 10, .s 4⟩) ∧
    decodeSlot 5 0x80120200 = some (.cnt ⟨⟨false, 0⟩, true, 8, .s 4⟩) := by
  refine ⟨?_, ?_, ?_, ?_, ?_, ?_, ?_, ?_, ?_, ?_, ?_, ?_, ?_, ?_, ?_, ?_, ?_, ?_, ?_, ?_, ?_, ?_, ?_, ?_, ?_, ?_, ?_, ?_, ?_, ?_, ?_⟩ <;> rfl

/-- Words of the control slot, their fields laid out by R36 and R49 with the opcodes of R55-R61; most are the spec's own examples. -/
theorem test_words_s6 :
    decodeSlot 6 0x021FFFFD = some (.br ⟨⟨false, 0⟩, 0x1FFFFD⟩) ∧
    decodeSlot 6 0x04000014 = some (.brp ⟨⟨false, 0⟩, .s 20⟩) ∧
    decodeSlot 6 0x07800005 = some (.call ⟨⟨true, 4⟩, 5⟩) ∧
    decodeSlot 6 0x0800003F = some (.ret ⟨⟨false, 0⟩, .s 63⟩) ∧
    decodeSlot 6 0x1014C005 = some (.loop ⟨⟨false, 0⟩, .imm 3, 5⟩) ∧
    decodeSlot 6 0x10150002 = some (.loop ⟨⟨false, 0⟩, .imm 4, 2⟩) ∧
    decodeSlot 6 0x12000000 = some (.lexit ⟨false, 0⟩) ∧
    decodeSlot 6 0x14061000 = some (.lix ⟨⟨false, 0⟩, 12, 1⟩) ∧
    decodeSlot 6 0x20000000 = some (.endk ⟨false, 0⟩) ∧
    decodeSlot 6 0x2200002A = some (.trap ⟨⟨false, 0⟩, 0x2A⟩) ∧
    decodeSlot 6 0x24000000 = some (.eret ⟨false, 0⟩) := by
  refine ⟨?_, ?_, ?_, ?_, ?_, ?_, ?_, ?_, ?_, ?_, ?_⟩ <;> rfl
/-! ### States for the statements' hypotheses -/

/-- A bundle of seven slots, issued at virtual cycle 10 on tick 90. -/
def bundle : Bundle :=
  { addr := 64, cyc := 10, tick := 90, mask := 0x7F, done := 0, empty := 0, p := false, ctl := none, swr := none, slots := [] }

/-- A core that runs, with that bundle open at tick 100, on a device that is ready. -/
def live : State :=
  { State.reset with isReady := true, time := 100, core := { Core.reset with act := { Ctx.blank with
      st := .running, phase := .issuing, bun := some bundle, vcyc := 10, pos := 64, gid := 7 } } }


/-- An s register set. -/
def withS (s : State) (i : Fin 64) (x : Word) : State :=
  { s with core := { s.core with act := { s.core.act with regs := { s.core.act.regs with s := s.core.act.regs.s.set i x } } } }

/-- A v register set. -/
def withV (s : State) (i : Fin 32) (x : Vec) : State :=
  { s with core := { s.core with act := { s.core.act with regs := { s.core.act.regs with v := s.core.act.regs.v.set i x } } } }

/-- The state that runs an ADD next, placed as a host places it, and the state of a step that opens its bundle. -/
def placedAdd : State := State.reset.placed 0 0x02510205

def header0 : Header := ⟨false, 1, 0, false⟩

theorem witness_decode_of_encode :
    let i := Instr.vqnt ⟨⟨true, 7⟩, .v 6, .f 7, 30, .e2m1⟩
    i.wf = true ∧ i.slot? = some 3 ∧ encode i = some (0x51E00000 + 6 * 2 ^ 15 + 39 * 2 ^ 9 + 30 * 2 ^ 3 + 2) := by
  refine ⟨by decide, rfl, rfl⟩

theorem witness_encode_of_decode :
    decodeSlot 0 0x02510205 = some (.add .s0 ⟨⟨false, 2⟩, true, 4, .s 4, .s 5⟩) ∧ fld 0x02510205 21 4 ≠ 8 ∧ (0x02510205 : Nat) < 2 ^ 32 :=
  ⟨rfl, by decide, by decide⟩

theorem fetches_placed : Fetches placedAdd header0 [.add .s0 ⟨⟨false, 2⟩, true, 4, .s 4, .s 5⟩] := by
  refine ⟨rfl, rfl, ⟨rfl, by decide⟩, rfl, rfl, by decide, ⟨rfl, rfl⟩, ⟨rfl, rfl, .inl rfl⟩, by decide +kernel, by decide +kernel, by decide +kernel, ?_, ?_⟩
  · decide +kernel
  · decide +kernel

theorem witness_step_runs : placedAdd.sound ∧ placedAdd.dawn = [] ∧ placedAdd.turn = placedAdd.key :: [] ∧ placedAdd.agenda = [] ∧
    Fetches placedAdd header0 [.add .s0 ⟨⟨false, 2⟩, true, 4, .s 4, .s 5⟩] :=
  ⟨⟨rfl, rfl⟩, rfl, rfl, rfl, fetches_placed⟩

theorem witness_step_events : (live.dawn = [] ∧ live.turn = [] ∧ live.agenda = []) ∧
    (let s : State := { live with agenda := [.timeBeat true] }
     s.dawn = [] ∧ s.turn = [] ∧ s.agenda = .timeBeat true :: []) ∧
    (let s : State := { live with dawn := [.tileOpComplete ⟨0, 0⟩], turn := [⟨0, 0⟩] }
     s.dawn = .tileOpComplete ⟨0, 0⟩ :: []) ∧
    (let s : State := { live with turn := [⟨0, 0⟩] }
     s.dawn = [] ∧ s.turn = ⟨0, 0⟩ :: []) := ⟨⟨rfl, rfl, rfl⟩, ⟨rfl, rfl, rfl⟩, rfl, rfl, rfl⟩

theorem witness_step_next : State.reset.sound ∧ ∃ t, step State.reset = .next t := ⟨⟨rfl, rfl⟩, _, rfl⟩

theorem witness_slot_frame : (Instr.hrel ⟨always, 3⟩).slot?.isSome = true ∧ ∃ t, exec (.hrel ⟨always, 3⟩) live = .next t := ⟨rfl, _, rfl⟩

theorem witness_guards : (Instr.addi .s1 ⟨never, true, 1, .s 1, 1⟩).slot? = some 1 ∧
    guardOf (.addi .s1 ⟨never, true, 1, .s 1, 1⟩) = some never ∧ live.guard never = false ∧ live.guard ⟨false, 7⟩ = false ∧
    live.guard always = true := ⟨rfl, rfl, rfl, rfl, rfl⟩

/-- A result of slot 5 due at cycle 10. -/
def inFlight : Flight :=
  { due := 10, cyc := 9, slot := 5, latch := some 1, writes := [.s 5 1], flags := 0, need := none, refresh := none }

/-- Landings: before any other, at the cycle of another write of the register, and at that of a write of another. -/
theorem witness_results_land :
    (inFlight.writes = [.s 5 1] ∧ inFlight.latch = some 1 ∧ inFlight.refresh = none ∧ inFlight.slot < 6 ∧
      ∀ p ∈ [(9, RegWrite.s 5 0)], p.1 < inFlight.due) ∧
    (inFlight.due, RegWrite.s 5 7) ∈ [(10, RegWrite.s 5 7)] ∧
    (∀ p ∈ [(10, RegWrite.s 6 0), (10, .v 5 0)], p.1 = inFlight.due → p.2.clash (.s 5 1) = false) ∧
    (let s := live.modCtx fun c => { c with phase := .gap, flights := [inFlight, { inFlight with due := 11, need := some 3 }] }
     s.sound ∧ s.core.act.st = .running ∧ s.core.act.phase ≠ .issuing ∧
       ∀ f ∈ s.core.act.flights, f.due ≤ s.core.act.vcyc → f.need = none) := by
  refine ⟨⟨rfl, rfl, rfl, by decide, by decide⟩, by decide, by decide, ⟨rfl, rfl⟩, rfl, by decide, by decide⟩

/-- The sources of a division at each corner, and of an ordinary one. -/
theorem witness_division :
    let r : RegF := ⟨always, true, 3, .s 1, .s 2⟩
    let s (a b : Word) : State := withS (withS live 1 a) 2 b
    (∀ a b, (s a b).guard r.g = true) ∧ (s 5 0).src r.b = 0 ∧
    (((s (2 ^ 63) (-1)).src r.a).toInt = -2 ^ 63 ∧ ((s (2 ^ 63) (-1)).src r.b).toInt = -1) ∧
    ((s (2 ^ 63) 1).src r.b ≠ 0 ∧ ¬(((s (2 ^ 63) 1).src r.a).toInt = -2 ^ 63 ∧ ((s (2 ^ 63) 1).src r.b).toInt = -1)) := by
  refine ⟨fun _ _ => rfl, by decide +kernel, by decide +kernel, by decide +kernel⟩

/-- The fields of BFX and BFI at the edges: W = 0, W = 65, LO + W = 65, and LO + W = 64. -/
theorem witness_bit_fields :
    let r : RegF := ⟨always, true, 3, .s 1, .s 2⟩
    let s (c : Word) : State := withS live 2 c
    let lo (c : Word) := ((s c).src r.b).toNat % 64
    let w (c : Word) := ((s c).src r.b).toNat / 256 % 128
    (∀ c, (s c).guard r.g = true) ∧ w 0 = 0 ∧ 64 < w 0x4100 ∧ 64 < lo 0x4001 + w 0x4001 ∧ ¬(w 0x4000 = 0 ∨ 64 < w 0x4000 ∨ 64 < lo 0x4000 + w 0x4000) ∧
      ¬(w 0x13F = 0 ∨ 64 < w 0x13F ∨ 64 < lo 0x13F + w 0x13F) := by
  refine ⟨fun _ => rfl, by decide, by decide, by decide, by decide, by decide⟩

theorem witness_system_registers :
    live.guard always = true ∧ live.core.act.bun = some bundle ∧ (⟨always, 3, 0x25⟩ : SysF).sr.val = 0x25 ∧
    (0x18 ∈ localCodes) ∧ (0x16 ∈ [0x0, 0x1, 0x2, 0x4, 0x5, 0x16]) := ⟨rfl, rfl, rfl, by decide, by decide⟩

/-- Inside a handler entered with two loop entries. -/
def handler : State := live.modCtx fun c =>
  { c with sys := { c.sys with estat := 0x5 }, loops := List.replicate 3 ⟨0, 4, 64, 128⟩ }

theorem witness_branches : live.core.act.bun = some bundle ∧ live.guard always = true ∧ live.core.act.inHandler = false ∧
    handler.core.act.bun = some bundle ∧ handler.core.act.inHandler = true := ⟨rfl, rfl, rfl, rfl, rfl⟩

/-- LOOP: a full stack, an end before the next bundle, a zero count and a push; LEXIT and LIX: no entry visible, and one. -/
theorem witness_loops :
    let full := live.modCtx fun c => { c with loops := List.replicate 6 ⟨0, 4, 64, 128⟩ }
    let next := live.core.act.pos + 4 * (1 + maskCount bundle.mask)
    live.core.act.bun = some bundle ∧ live.guard always = true ∧ live.core.act.pos < 2 ^ 22 ∧ full.core.act.loops.length = 6 ∧
    (live.core.act.loops.length ≠ 6 ∧ live.core.act.pos + 4 * (7#14).toNat < next ∧ ¬live.core.act.pos + 4 * (8#14).toNat < next) ∧
    (withS live 1 0).src (.s 1) = 0 ∧ (withS live 1 1).src (.s 1) ≠ 0 ∧
    live.core.act.loops.length = 0 ∧ handler.core.act.loops.length - handler.core.act.ldep = 1 := by
  refine ⟨rfl, rfl, by decide, by decide, by decide, by decide, by decide, by decide, by decide⟩

theorem witness_completion :
    let l : Loop := ⟨2, 4, 32, 64⟩
    (∀ x ∈ [l], x.fin.toNat ≠ 60) ∧ l.fin.toNat = 64 ∧ (l.index + 1).toNat < l.count.toNat ∧
      ¬((3 : Word) + 1).toNat < (4 : Word).toNat := by decide

/-- An overdue block with its trap enabled and not; a handler that returns to the bundle it interrupted. -/
theorem witness_handler :
    (let s (m : Word) := live.modCtx fun c => { c with asyncQ := [3], sys := { c.sys with tmask := m } }
     (∀ m, (s m).core.act.st = .running ∧ (s m).core.act.phase = .issuing ∧ (s m).core.act.bun = some bundle ∧
       (s m).core.act.asyncQ = 3 :: [] ∧ (s m).core.act.inHandler = false ∧ (s m).sound) ∧
     (s 0x1000000).core.act.sys.tmask.getLsbD 0x18 = true ∧ (s 0).core.act.sys.tmask.getLsbD 0x18 = false) ∧ bundle.done = 0 ∧
    (let v : TrapSave := { lat := Vector.replicate 12 0, flights := [], bun := some bundle, snap := none, wins := [], stage := none }
     let c : Ctx := { handler.core.act with save := some v, sys := { handler.core.act.sys with epos := 64 } }
     c.save = some v ∧ v.bun = some bundle ∧ bundle.addr = c.sys.epos.toNat) := by
  refine ⟨⟨fun _ => ⟨rfl, rfl, rfl, rfl, (show (0#64).getLsbD 0 = false by decide), rfl, rfl⟩, by decide, by decide⟩, rfl, rfl, rfl, by decide⟩

/-- A bundle of empty slots, a throttled partition, a debug stop and an illegal header. -/
theorem witness_issue :
    let text (w : Nat) : State := placedAdd.modCore fun c => { c with spm := c.spm.writes (cellsAt 0 (toBytes 4 w)) }
    Fetches (text 0) ⟨false, 0, 0, false⟩ [] ∧
    (let s := live.modPart 0 fun p => { p with throttled := true }
     s.sound ∧ s.core.act.st = .running ∧ (s.part s.core.act.part).throttled = true) ∧
    (let s := (text 1).modCtx fun c => { c with noStop := false }
     s.sound ∧ s.core.act.st = .running ∧ (s.part s.core.act.part).throttled = false ∧ s.core.act.replay = [] ∧
      s.core.act.phase = .ready ∧ s.core.act.bun = none ∧ (∀ f ∈ s.core.act.flights, s.core.act.vcyc < f.due) ∧
      s.core.fetchable s.core.act.pos 4 = true ∧ (∀ g ∈ gransOf s.core.act.pos 4, s.core.granSt g = .clean) ∧
      (∀ i < 4, s.core.spBad.contains (s.core.physOff (s.core.act.pos + i)) = false) ∧ s.core.act.noStop = false ∧
      s.core.act.bankUntil ≤ s.time ∧ s.core.act.dbgMet = false ∧
      (let t := (s.modCtx fun c => { c with bankUntil := 7 })
       t.core.act.phase ≠ .boundary ∧ t.core.act.phase ≠ .issuing ∧ t.time < t.core.act.bankUntil) ∧
      decodeHeader (s.core.code s.core.act.pos) = none ∧ s.core.regsx.dbgctl.getLsbD 3 = false ∧
      (s.modCore fun c => { c with regsx := { c.regsx with dbgctl := 8 } }).core.regsx.dbgctl.getLsbD 3 = true) := by
  refine ⟨⟨rfl, rfl, ⟨rfl, by decide⟩, rfl, rfl, by decide, ⟨rfl, rfl⟩, ⟨rfl, rfl, .inl rfl⟩, by decide +kernel, by decide +kernel, by decide +kernel,
    by decide +kernel, by decide +kernel⟩, ⟨⟨rfl, rfl⟩, rfl, by decide +kernel⟩, ⟨rfl, rfl⟩, rfl, rfl, rfl, rfl, rfl, by decide, by decide +kernel,
    by decide +kernel, by decide +kernel, rfl, by decide, rfl, ⟨by decide, by decide, by decide⟩, by decide +kernel, rfl, rfl⟩

/-! ### Vector, memory and request statements -/

/-- A pattern of one window of 64 words at offset 256. -/
def pat (out gen : Bool) : Pattern :=
  { gph := false, gate := 3, gen := gen, fmt := 0, out := out, base := 256, e := [64, 1, 1, 1], s := [4, 4, 4, 4] }

/-- A feed bound to it, with prefetched windows and reserved windows. -/
def feed (out gen : Bool) (buf : List Win) (res : List (Nat × Nat × Option Vec)) : Feed :=
  { pat := pat out gen, win := 0, pass := 0, fetchWin := 0, fetchPass := 0, gated := false, buf := buf, res := res }

/-- Feeds f0 with a window, f1 with none, f2 with an error, f3 outbound with room, f4 outbound and full; f5-f7 unbound. -/
def feeding : State := live.modCore fun c => { c with feeds :=
  #v[some (feed false false [(5, none)] []), some (feed false false [] []), some (feed false false [(5, some 300)] []),
     some (feed true false [] []), some (feed true false [] (List.replicate 4 (0, 0, none))), none, none, none] }

theorem witness_vector_operands :
    (∀ t ∈ [ElemT.i32, .i16, .i8], t.isInt = true) ∧ fmtOf .f32 ≠ none ∧ fmtOf .bf16 ≠ none ∧ fmtOf .f16 ≠ none ∧
    live.core.readV (.v 1) = .val 0 ∧ live.core.readV (.l 11) = .val 0 ∧ feeding.core.readV (.f 0) = .val 5 ∧
    live.core.dstReady (.v 31) = .ok ∧ live.core.dstReady .none = .ok ∧ feeding.core.dstReady (.f 3) = .ok := by
  refine ⟨by decide, by decide, by decide, by decide, by decide +kernel, by decide +kernel, by decide +kernel, rfl, rfl, rfl⟩

/-- Feeds: unbound and bound the other way, empty, full, and with an error in the window. -/
theorem witness_feed_conditions :
    feeding.core.readV (.f 5) = .bad 37 ∧ feeding.core.readV (.f 3) = .bad 35 ∧ feeding.core.readV (.v 1) = .val 0 ∧
    feeding.core.readV (.f 1) = .empty ∧ feeding.core.dstReady (.f 4) = .full ∧ feeding.core.readV (.f 2) = .error 300 := by
  refine ⟨by decide +kernel, by decide +kernel, by decide +kernel, by decide +kernel, rfl, by decide +kernel⟩

/-- Placements of VQNT: odd, above 190, and the last that is admitted. -/
theorem witness_placements :
    let p (x : Vec) := lane 32 ((withV live 6 x).core.oldV (.v 6)) 0 % 256
    p 1 % 2 = 1 ∧ 190 < p 192 ∧ ¬(p 190 % 2 = 1 ∨ 190 < p 190) ∧ (withV live 6 190).core.readV (.v 1) = .val 0 ∧
      (withV live 6 190).core.dstReady (.v 6) = .ok := by
  refine ⟨by decide +kernel, by decide +kernel, by decide +kernel, by decide +kernel, rfl⟩

theorem witness_matrix : live.core.dstReady (.v 4) = .ok ∧ (∀ o ∈ live.core.tile.ops, o.eff = none) ∧ live.core.readV (.v 4) = .val 0 ∧
    live.core.tile.past = [] ∧ (0 : Fin 8) ∉ live.core.tile.mBad ∧
    (let s := live.modCore fun c => { c with tile := { c.tile with mBad := [7] } }
     s.core.dstReady (.v 4) = .ok ∧ (7 : Fin 8) ∈ s.core.tile.mBad) :=
  ⟨rfl, by decide, by decide +kernel, rfl, by decide, rfl, by decide⟩

/-- A context with a region of mode 3 at offset 0 and no other. -/
def readOnly : State := live.modCore fun c => { c with regions := c.regions.set 5 ⟨0, 4096, 0, false, 0, 3⟩, gran := [(0, .clean)] }

/-- Own scratchpad: the last double word, the last vector, a read-only region; what does not fit, and what is misaligned. -/
theorem witness_own_scratchpad :
    let s (ea : Word) := withS live 9 ea
    live.guard always = true ∧
    (spaOk (s 0x2FFFF8) 0x2FFFF8 = true ∧ (0x2FFFF8 : Word).toNat % 8 = 0 ∧ spaOwn (s 0x2FFFF8) 0x2FFFF8 = true ∧
      touch 0x2FFFF8 8 (s 0x2FFFF8) = (s 0x2FFFF8, .ok) ∧ (s 0x2FFFF8).core.badAt 0x2FFFF8 8 = false ∧
      (s 0x2FFFF8).core.roHit 0x2FFFF8 8 = false ∧ (s 0x2FFFF8).sreg 9 + (0#6).signExtend 64 * 8 = 0x2FFFF8) ∧
    (spaOk (s 0xFF2FFF00) 0xFF2FFF00 = true ∧ (0xFF2FFF00 : Word).toNat % 256 = 0 ∧ spaOwn (s 0xFF2FFF00) 0xFF2FFF00 = true ∧
      touch 0x2FFF00 256 (s 0xFF2FFF00) = (s 0xFF2FFF00, .ok) ∧ (s 0xFF2FFF00).core.badAt 0x2FFF00 256 = false) ∧
    (readOnly.core.roHit 0 8 = true ∧ spaOk readOnly 0 = true ∧ spaOwn readOnly 0 = true ∧ touch 4088 8 readOnly = (readOnly, .ok)) ∧
    ((1 : Nat) ≠ live.core.act.role ∧ ¬1 < live.gangSize ∧ ¬(0x300000 ≤ 0x2FFFFF)) ∧ (0x2FFFFE : Word).toNat % 4 ≠ 0 := by
  refine ⟨rfl, ⟨by decide +kernel, by decide, by decide +kernel, rfl, by decide +kernel, by decide +kernel, by decide +kernel⟩,
    ⟨by decide +kernel, by decide, by decide +kernel, rfl, by decide +kernel⟩, ⟨by decide +kernel, by decide +kernel, by decide +kernel, rfl⟩,
    by decide +kernel, by decide⟩

/-- A gang of two roles in cluster 0, in slots 0 and 12. -/
def pair : Gang :=
  { id := 7, part := 0, task := 0, index := 0, size := 2, cl := 0, strips := [1, 1],
    members := [⟨0, 0, false, none, none⟩, ⟨1, 12, false, none, none⟩], start := none, standby := false, restoring := false,
    saving := false, flushed := false, grace := none, bars := Vector.replicate 16 ⟨false, 0, false⟩, hits := [] }

def paired : State := { live with gangs := [pair] }

def store (id : Nat) (remote : Bool) : Tok := ⟨id, true, remote, 0, false, true⟩

theorem witness_peer_scratchpad :
    paired.guard always = true ∧ spaOk paired 0x12FFFF8 = true ∧ (0x12FFFF8 : Word).toNat % 8 = 0 ∧ spaOwn paired 0x12FFFF8 = false ∧
    paired.roleCore ((0x12FFFF8 : Word).toNat % 2 ^ 32 / 2 ^ 24) = some ⟨0, 12⟩ ∧ paired.core.unacked < 256 ∧
    eaMem (withS paired 9 0x12FFFF8) 9 0 8 = 0x12FFFF8 ∧
    256 ≤ (paired.modCore fun c => { c with toks := (List.range 256).map fun i => store i false }).core.unacked := by
  refine ⟨rfl, by decide +kernel, by decide, by decide +kernel, by decide +kernel, by decide, by decide +kernel, by decide +kernel⟩

/-- A cached leaf of the page of GVA 0xFFF0000000010000, writable or not. -/
def mapped (w : Bool) : State :=
  live.modCore fun c => { c with tlb := [{ big := false, vpn := 1, pa := 0x30000, w := w }], toks := [store 1 false] }

/-- A word of that page, and one of the device in position 5 of the stand. -/
def gva : Word := 0xFFF0000000010008
def farGva : Word := 0x0050000000010008

/-- A device that has joined at position 0 and may reach position 5. -/
def joined : State :=
  let s := live.modPart 0 fun p => { p with peerwin := 1#3584 <<< 5 }
  { s with
    link := { Link.reset with standcfg := 0x0000FFF008000000, routes := [(5, 0x8000000000000000)] } }

theorem witness_global_checks :
    let i := Instr.stl ⟨always, 3, 9, .device, true, 0⟩
    let s := withS (mapped true) 9 gva
    globalForm s i = some ⟨always, gva, 8, true, .device, true⟩ ∧ s.guard always = true ∧ gva.toNat % 8 = 0 ∧
    s.peerPasses s.core.act.part (peerOf gva) = true ∧ s.ownDevice (peerOf gva) = true ∧
    translate (vaOf gva) true s = (s, .hit 0x30008) ∧ releaseReady .device s = false ∧
    ((gva + 4).toNat % 8 ≠ 0 ∧ s.peerPasses s.core.act.part (peerOf farGva) = false) ∧
    (∃ s', translate (vaOf gva) true (withS (mapped false) 9 gva) = (s', .fault 2 3)) ∧
    ∃ s', translate (vaOf gva) true (withS live 9 gva) = (s', .wait) := by
  refine ⟨rfl, rfl, by decide, by decide +kernel, by decide +kernel, rfl, rfl, by decide +kernel, ⟨_, rfl⟩, ⟨_, rfl⟩⟩

theorem witness_global_sends :
    (let s := withS (mapped true) 9 gva
     globalForm s (.ld ⟨always, true, 3, 9, 0, 0, .d⟩) = some ⟨always, gva, 8, false, .core, false⟩ ∧ gva.toNat % 8 = 0 ∧
      s.peerPasses s.core.act.part (peerOf gva) = true ∧ s.ownDevice (peerOf gva) = true ∧
      translate (vaOf gva) false s = (s, .hit 0x30008) ∧ s.core.unacked < 256) ∧
    (let s := withS joined 9 farGva
     globalForm s (.cas ⟨always, true, true, .rel, 3, 9, 4, .stand⟩) = some ⟨always, farGva, 8, true, .stand, true⟩ ∧ farGva.toNat % 8 = 0 ∧
      s.peerPasses s.core.act.part (peerOf farGva) = true ∧ s.ownDevice (peerOf farGva) = false ∧ releaseReady .stand s = true) := by
  refine ⟨⟨rfl, by decide, by decide +kernel, by decide +kernel, rfl, by decide⟩, rfl, by decide, by decide +kernel, by decide +kernel, rfl⟩

theorem witness_phase : live.guard always = true ∧ releaseReady .stand live = true ∧ releaseReady .device (mapped true) = false ∧
    releaseReady .core (mapped true) = true := ⟨rfl, rfl, rfl, rfl⟩

/-- Key 0x2805 of set 5 held in way 0, and a DIRTY granule of a mapped write-back region. -/
def tagged : State := live.modCore fun c => { c with tags := [⟨5, 0, 0x45, 40⟩] }

def dirtied : State := (mapped true).modCore fun c =>
  { c with regions := c.regions.set 5 ⟨0xFFF0000000010000, 4096, 8192, false, 0, 1⟩, gran := [(2, .dirty)] }

theorem witness_tags :
    (withS tagged 1 0x22800).core.tagFind ((withS tagged 1 0x22800).src (.s 1)) = some ⟨5, 0, 0x45, 40⟩ ∧
    tagged.core.tagFind (tagged.src (.s 1)) = none ∧ tagged.guard always = true ∧
    1535 < ((withS tagged 2 1536).src (.s 2)).toNat ∧ ((withS tagged 2 1535).src (.s 2)).toNat ≤ 1535 ∧
    64 < ((withS tagged 1 65).src (.s 1)).toNat ∧ ((withS tagged 1 64).src (.s 1)).toNat ≤ 64 ∧
    tagged.core.dirtyGrans 64 = [] := by
  refine ⟨by decide +kernel, by decide +kernel, rfl, by decide +kernel, by decide +kernel, by decide +kernel, by decide +kernel,
    by decide +kernel⟩

theorem witness_write_back :
    let s := withS dirtied 1 64
    s.guard always = true ∧ (s.src (.s 1)).toNat ≤ 64 ∧ s.core.dirtyGrans 64 = [2] ∧
    s.core.regionAt (4096 * 2) = some (5, ⟨0xFFF0000000010000, 4096, 8192, false, 0, 1⟩) ∧ s.core.act.phase = .issuing ∧
    s.ownDevice (peerOf 0xFFF0000000010000) = true ∧ translate (vaOf 0xFFF0000000010000) true s = (s, .hit 0x30000) := by
  refine ⟨rfl, by decide +kernel, by decide +kernel, by decide +kernel, rfl, by decide +kernel, rfl⟩

/-- A request of the core in view. -/
def request (kind : ReqKind) (applied : Bool) (bad : Nat) : Req :=
  { mkReq live kind gva 0x30008 8 with id := 1, applied := applied, bad := bad }

def asked (kind : ReqKind) (applied : Bool) (bad : Nat) : State := { live with reqs := [request kind applied bad] }

theorem witness_requests :
    (∀ k ∈ [ReqKind.store, .stl, .lda, .atom .add, .atom .max, .cas 0],
      let r := { request k false 0 with injected := true }
      let s : State := { live with reqs := [r] }
      r.kind.isPeer = false ∧ r.injected = true ∧ r.crosses s = false ∧ s.mem.wf = true ∧ s.wrote = [] ∧ s.req? r.id = some r ∧ r.applied = false ∧ r.remote = none ∧ s.blocked r = false ∧
        s.lineBad r.pa = false ∧ 0 < r.size) ∧
    (let r := { request (.peerStore ⟨0, 0⟩) false 0 with pa := 0x2FFFF8 }
     let s := { live with reqs := [r] }
     s.req? r.id = some r ∧ r.applied = false ∧ s.blocked r = false ∧ 0 < r.size ∧ s.key = ⟨0, 0⟩ ∧ touch r.pa r.size s = (s, .ok) ∧
       s.core.badAt r.pa r.size = false ∧ s.core.roHit r.pa r.size = false ∧ s.core.tile.ops = [] ∧ s.core.tile.past = []) ∧
    (let s := asked .lda false 0
     let r := request .lda false 0
     s.meshOpen r.key r.part r.size = false ∧
       ((s.modCore fun c => { c with meshTok := some 128 }).modPart 0 fun p => { p with plyTok := [(0, 128)] }).meshOpen r.key r.part r.size = true) ∧
    (let a := request .stl false 0
     let b := { request .lda false 0 with id := 2, injected := true }
     let s : State := { live with reqs := [a, b], lines := [(0x600, ⟨1, some 0, false, 0, false⟩)] }
     s.blocked b = true ∧ s.blocked a = false ∧ s.lineBad b.pa = true ∧ b.kind.consumes = true ∧ b.injected = true ∧ b.crosses s = false) := by
  refine ⟨by decide +kernel, ⟨by decide +kernel, rfl, by decide +kernel, by decide, rfl, rfl, by decide +kernel, by decide +kernel, rfl, rfl⟩,
    by decide +kernel, by decide +kernel⟩

/-- A load of one byte and of eight, a granule's last line store, and error replies that stop the context. -/
theorem witness_replies :
    let f : Flight := { inFlight with latch := none, writes := [.s 5 0], need := some 1 }
    (∀ n ∈ [1, 8],
      let r := { request .load true 0 with size := n }
      let s := { live.modCtx (fun c => { c with flights := [f] }) with reqs := [r] }
      s.req? r.id = some r ∧ r.key = s.key ∧ r.applied = true ∧ r.bad = 0 ∧ r.size ∈ [1, 2, 4, 8] ∧ f ∈ s.core.act.flights ∧
        f.need = some r.id) ∧
    (let s := (asked (.fillBack 2) true 0).modCore fun c => { c with gran := [(2, .writing 1 true)] }
     s.req? 1 = some (request (.fillBack 2) true 0) ∧ s.core.granSt 2 = .writing 1 true) ∧
    (∀ b ∈ [0x13, 1, 4],
      let s := asked .store true b
      let r := request .store true b
      s.req? r.id = some r ∧ r.key = s.key ∧ s.core.act.st = .running ∧ s.core.act.phase ≠ .boundary ∧ s.core.act.gid = r.ctx ∧
        (r.bad = 0x13 ∨ 1 ≤ r.bad ∧ r.bad ≤ 4)) := by
  refine ⟨by decide +kernel, by decide +kernel, by decide +kernel⟩
/-! ### Tile and transfer statements -/

/-- An operation of the engine queue. -/
def tileOp (work : TileWork) (seq : Nat) (eff : Option TileEff) (start : Option Nat) : TileOp :=
  { work := work, eff := eff, seq := seq, addr := 64, entered := 90, start := start, finish := 95, stopped := false }

def tiled (f : Tile → Tile) : State := live.modCore fun c => { c with tile := f c.tile }

/-- Engine registers for I8 pairs, with one row group of 128 rows. -/
def int8 : State := tiled fun t => { t with greg := (t.greg.set 0 0x44).set 8 128 }

theorem hazard_free (s : State) (h : s.core.act.hazard = none) (n : (s.core.tile.ops.filter fun o => o.start.isNone).length < 2) :
    tileFree s := ⟨fun _ x => (by rw [h] at x; cases x), n⟩

theorem witness_tile_enters :
    tileFree live ∧ tileFree int8 ∧ live.guard always = true ∧
    padFits (withS live 1 0x2F8000) 0x2F8000 256 128 256 ∧ padFits live 0 512 128 512 ∧
    (withS live 1 0x2F8000).src (.s 1) = 0x2F8000 ∧ (withS live 2 512).src (.s 2) = 512 := by
  refine ⟨hazard_free _ rfl (by decide +kernel), hazard_free _ rfl (by decide +kernel), rfl, ?_, ?_, by decide +kernel, by decide +kernel⟩
  · unfold padFits; decide +kernel
  · unfold padFits; decide +kernel

theorem witness_tile_pairs :
    pairCheck (int8.greg 0) = none ∧ spareCheck int8 0 = none ∧ (operandA int8 true (int8.src (.s 1))).2 = (none, none) ∧
    (operandB int8 true (int8.src (.s 1))).2 = (none, none) ∧
    (((List.range 8).map fun i => int8.greg (Fin.ofNat 16 (8 + i))).map grpRows = [128, 0, 0, 0, 0, 0, 0, 0] ∧
      padFits int8 (tileBase 0 0 128) 0 32 64 ∧ int8.greg 2 = 0 ∧ 64 * opWidth (bfmt (int8.greg 0)) / 8 = 64) ∧
    (0 : Word).toNat % 4 = 0 ∧ mapPair (live.greg 3) 0 % 2 = 0 := by
  refine ⟨by decide +kernel, by decide +kernel, by decide +kernel, by decide +kernel, ⟨by decide +kernel, ?_, by decide +kernel,
    by decide +kernel⟩, by decide, by decide +kernel⟩
  unfold padFits
  decide +kernel

/-- The hazard interval at its last cycle and past it, a full queue, an operand out of range and one misaligned. -/
theorem witness_tile_stops :
    (let s := live.modCtx fun c => { c with hazard := some 7 }
     isTileOp (.mz ⟨always, 1⟩) = true ∧ guardOf (.mz ⟨always, 1⟩) = some always ∧ s.core.act.hazard = some 7 ∧ s.core.act.cyc - 7 < 4) ∧
    (let s := (tiled fun t => { t with ops := [tileOp (.mz 1) 1 none none, tileOp (.mz 2) 2 none none] }).modCtx fun c => { c with hazard := some 6 }
     (∀ c0, s.core.act.hazard = some c0 → 4 ≤ s.core.act.cyc - c0) ∧ 2 ≤ (s.core.tile.ops.filter fun o => o.start.isNone).length) ∧
    (¬(0x2F8004 + (127 * 256 + 256) ≤ 0x300000) ∧ 0x2F8000 + (127 * 256 + 256) ≤ 0x300000) ∧ (2 : Word).toNat % 4 ≠ 0 := by
  refine ⟨⟨rfl, rfl, rfl, by decide⟩, ⟨?_, by decide⟩, by decide, by decide⟩
  intro c0 h
  cases h
  decide

theorem witness_tile_control :
    live.guard always = true ∧ engineRegOk 15 = true ∧ (engineRegOk 14 = true ∧ engineRegOk 15 = true) ∧ engineRegOk 4 = true ∧
    (∀ n : Fin 3, live.core.tile.ops.length ≤ n.val) ∧
    ¬(tiled fun t => { t with ops := [tileOp (.mz 1) 1 none none] }).core.tile.ops.length ≤ (0 : Fin 3).val := by
  refine ⟨rfl, by decide, by decide, by decide, by decide, by decide⟩

theorem witness_tile_runs :
    (let s := tiled fun t => { t with ops := [tileOp (.mz 1) 1 none none] }
     nextTile s.core.tile.ops = some (tileOp (.mz 1) 1 none none, []) ∧ tileReady s (tileOp (.mz 1) 1 none none) [] = true ∧
      (usesOf (.mz 1)).runs = [] ∧ badOperand s.core (.mz 1) = none) ∧
    (let o := tileOp (.mzPs false) 1 (some (tileEffect live.core (.mzPs false))) (some 94)
     let s := tiled fun t => { t with ops := [o] }
     dueTile s = some o ∧ o.eff = some (tileEffect s.core o.work) ∧ o.raced = []) := by
  refine ⟨⟨rfl, by decide +kernel, rfl, rfl⟩, rfl, rfl, rfl⟩

/-- A pattern record of one window at offset 0: FMT 0 (.f32), extents 64, 1, 1, 1, strides 4. -/
def patternRecord : List Nat := [0, 64 + 2 ^ 16 + 2 ^ 32 + 2 ^ 48, 4 + 4 * 2 ^ 32, 4 + 4 * 2 ^ 32, 0, 0, 0, 0]

/-- The words of a record at an offset of the scratchpad. -/
def withWords (s : State) (off : Nat) (ws : List Nat) : State :=
  s.modCore fun c => { c with spm := c.spm.writes (cellsAt off (ws.flatMap (toBytes 8))) }

/-- A copy that waits for its release. -/
def copyCommand (id : Nat) (st : Nat) (box : Option Box) : Copy :=
  { id := id, kind := .move, desc := 0, rel := 0, u := 50, q := 0, ac := 0, no := 1, st := st, joined := 0, box := box, next := 0, held := [],
    remain := 8, unacked := 0, handle := 9, hmode := false, reason := 0 }

/-- Descriptors at the last offset, past it and misaligned; a full buffer; a pattern that is bound, and the fields that trap. -/
theorem witness_transfers :
    live.guard always = true ∧
    (descFits live 0x2FFFC0 ∧ ¬descFits live 0x2FFFC1 ∧ (0x2FFFC0 : Word).toNat % 64 = 0 ∧ (0x2FFFA0 : Word).toNat % 64 ≠ 0) ∧
    (1024 ≤ (live.modCore fun c => { c with copies := List.replicate 1024 (copyCommand 1 0 none) }).core.copies.length) ∧
    (live.core.copies.length < 1024 ∧ touch 16 8 live = (live, .ok) ∧ live.core.badAt 16 8 = false) ∧
    (let s := withWords live 0 patternRecord
     let g := (List.range 8).map fun i => s.core.word (8 * i)
     let p := patternOf g
     touch 0 64 s = (s, .ok) ∧ s.core.badAt 0 64 = false ∧ patternFields g p = true ∧ patternAligned p = true ∧ patternRange p = true ∧
      p.windows ≤ (1 : Word).toNat ∧ (0 : Word).toNat < p.windows ∧ s.core.draining 2 = false) ∧
    (let bad (ws : List Nat) (f : List Nat → Pattern → Bool) : Bool := f ws (patternOf ws)
     bad (2 ^ 37 :: patternRecord.drop 1) patternFields = false ∧ bad (2 :: patternRecord.drop 1) (fun _ p => patternAligned p) = false ∧
      bad (0x2FFFFC :: patternRecord.drop 1) (fun _ p => patternRange p) = false) ∧
    feeding.core.draining 4 = true ∧ feeding.core.draining 3 = false := by
  refine ⟨rfl, ?_, by decide +kernel, ⟨by decide, rfl, by decide +kernel⟩,
    ⟨rfl, by decide +kernel, by decide +kernel, by decide +kernel, by decide +kernel, by decide +kernel, by decide +kernel, rfl⟩,
    by decide +kernel, rfl, rfl⟩
  unfold descFits
  decide +kernel

theorem witness_handles :
    live.guard always = true ∧ 2 ^ 32 ≤ ((withS live 9 0x100000000).src (.s 9)).toNat ∧ ((withS live 9 0xFFFFFFFF).src (.s 9)).toNat < 2 ^ 32 ∧
    (live.core.handles[(255 : Fin 256)]).st = .free ∧ (live.core.handles[(255 : Fin 256)]).ph = false ∧
    (let s := live.modCore fun c => { c with handles := (c.handles.set 3 ⟨8, 0, false, false, .filling⟩).set 4 ⟨8, 8, false, true, .full⟩ }
     (s.core.handles[(3 : Fin 256)]).st = .filling ∧ (s.core.handles[(4 : Fin 256)]).st = .full) := by
  refine ⟨rfl, by decide +kernel, by decide +kernel, by decide +kernel, by decide +kernel, by decide +kernel⟩

theorem witness_tasks :
    live.guard always = true ∧ (0x20 : Word).toNat % 64 ≠ 0 ∧
    (let g : Word := 0xFFF0000000010040
     let s := live.modCore fun c => { c with tlb := [{ big := false, vpn := 1, pa := 0x30000, w := false }] }
     g.toNat % 64 = 0 ∧ s.peerPasses s.core.act.part (peerOf g) = true ∧ s.ownDevice (peerOf g) = true ∧
      translate (vaOf g) false s = (s, .hit 0x30040) ∧ releaseReady .device s = true) ∧
    (let g : Word := 0x0050000000010040
     live.peerPasses live.core.act.part (peerOf g) = false ∧ joined.peerPasses joined.core.act.part (peerOf g) = true ∧
      joined.ownDevice (peerOf g) = false) ∧
    releaseReady .device (mapped true) = false ∧ 255 < ((withS live 1 256).src (.s 1)).toNat ∧ ((withS live 1 255).src (.s 1)).toNat ≤ 255 ∧
    (live.src (.imm 0)).setWidth 32 = (0 : BitVec 32) ∧ (live.src (.imm 1)).setWidth 32 ≠ (0 : BitVec 32) := by
  refine ⟨rfl, by decide, ⟨by decide, by decide +kernel, by decide +kernel, rfl, rfl⟩, by decide +kernel, rfl, by decide +kernel,
    by decide +kernel, by decide +kernel, by decide +kernel⟩

theorem witness_barriers :
    live.guard always = true ∧ live.core.act.stage = none ∧ live.core.act.arrived.getLsbD 15 = false ∧ releaseReady .stand live = true ∧
    releaseReady .stand (mapped true) = false ∧ (live.modCtx fun c => { c with arrived := 0x8000 }).core.act.arrived.getLsbD 15 = true ∧
    (live.modCtx fun c => { c with stage := some (.barSent 3) }).core.act.stage = some (.barSent 3) ∧
    paired.gang? paired.core.act.gid = some pair ∧ (pair.bars[(2 : Fin 16)]).ph = false ∧
    (live.modCtx fun c => { c with stage := some (.pauseUntil 104) }).core.act.stage = some (.pauseUntil 104) := by
  refine ⟨rfl, rfl, by decide, rfl, rfl, by decide, rfl, rfl, by decide, rfl⟩

/-- Inside an exchange phase that opened at tick 96. -/
def phased : State := live.modCtx fun c => { c with epoch := some 96 }

theorem witness_exchange :
    live.guard always = true ∧ paired.gangSize ≤ (2 : Word).toNat ∧ (1 : Word).toNat < paired.gangSize ∧
    paired.roleCore 1 = some ⟨0, 12⟩ ∧ paired.roleCore paired.core.act.role = some ⟨0, 0⟩ ∧
    (live.core.act.stage = none ∧ live.core.act.epoch = none ∧ phased.core.act.epoch = some 96 ∧ phased.core.act.broken = false ∧
      96 + (3#14).toNat < phased.time ∧ phased.time ≤ 96 + (4#14).toNat) ∧
    ((live.modCtx fun c => { c with broken := true }).core.act.broken = true ∧ (live.modCtx fun c => { c with broken := true }).core.act.epoch = none ∧
      (let s := (phased.modCtx fun c => { c with stage := some .sending }).modCore fun c => { c with sendBuf := List.range 8 }
       s.core.act.stage = some .sending ∧ s.core.readV (.v 3) = .val 0 ∧ 8 ≤ s.core.sendBuf.length)) ∧
    (phased.core.readV (.v 3) = .val 0 ∧ phased.core.sendBuf.length < 8 ∧
      8 ≤ (phased.modCore fun c => { c with sendBuf := List.range 8 }).core.sendBuf.length) ∧
    (phased.core.dstReady (.v 6) = .ok ∧ phased.railHit true 100 = none) := by
  refine ⟨rfl, by decide +kernel, by decide +kernel, by decide +kernel, by decide +kernel, by decide +kernel, ⟨rfl, rfl, rfl, by decide +kernel, by decide⟩,
    ⟨by decide +kernel, by decide, by decide⟩, rfl, rfl⟩

/-- A partition with one page of the Clearing, and its ply's mirror in order. -/
def cleared : State :=
  let s := live.modPart 0 fun p => { p with clalloc := 0x0000100000001000 }
  { s with plies := s.plies.set 0 { Ply.reset with stale := false } }

def entry (kind addr : Nat) (data : Word) : CEntry := ⟨0, 0, kind, 0, true, addr, data, 0, 5, some ⟨0, 0⟩⟩

def queued (q : List CQueued) : State := { cleared with clr := { cleared.clr with queue := q } }

theorem witness_clearing :
    live.guard always = true ∧ (¬clearingFits 0x80000000 false ∧ clearingFits 0x61000FF8 true ∧ clearingFits 0x1000FF8 false) ∧
    (0x1000FF8 : Word).toNat % 2 ^ 23 % 8 = 0 ∧ (0x1000FFC : Word).toNat % 2 ^ 23 % 8 ≠ 0 ∧
    (let w := (cleared.part cleared.core.act.part).clalloc
     0xFF8 + 8 ≤ 4096 * (w.toNat / 2 ^ 44 % 4096) ∧ 4096 * (w.toNat / 2 ^ 44 % 4096) < 0x1000 + 8) ∧
    stationLoad cleared 0 0 < 64 ∧ 64 ≤ stationLoad (queued (List.replicate 64 ⟨0, 0, 100, entry 1 0 0⟩)) 0 0 ∧
    (cleared.plies[(0 : Fin 12)].stale = false ∧ pendingOwn cleared 0x1FF8 8 = false ∧ cleared.plies[(0 : Fin 12)].bad = false) ∧
    live.plies[(0 : Fin 12)].stale = true ∧
    pendingOwn (queued [⟨0, 0, 100, entry 1 0x1FF8 0⟩]) 0x1FFC 4 = true ∧
    (let s := (queued (List.replicate 63 ⟨0, 0, 100, entry 1 0 0⟩)).modCtx fun c => { c with stage := some .queueFull }
     s.core.act.waitsForQueue = true ∧ stationLoad s 0 0 = 63 ∧
      queueWaiters { s with others := [(⟨1, 0⟩, s.core)] } 0 0 = 1 + queueWaiters s 0 0 ∧ live.core.act.waitsForQueue = false) := by
  refine ⟨rfl, ?_, by decide, by decide, by decide +kernel, by decide +kernel, by decide +kernel, by decide +kernel, by decide +kernel,
    by decide +kernel, by decide +kernel⟩
  unfold clearingFits
  decide +kernel

/-- A block record for PUB: 64 bytes of scratchpad at 256 for one consumer, whose word stands at 128. -/
def pubRecord : List Nat := [256, 64 + 0x77 * 2 ^ 32, 1000 * 2 ^ 32, 2 ^ 35 + 2 ^ 24 + 128, 0, 0, 0, 0]

/-- A notice of a producer of this device, and the port it came from. -/
def notice : Notice := ⟨0x77, 0x105, 4095, 0, 0, 0, false, true, 64, 256, 0, 3, none⟩
def producer : PortName := ⟨0, 3, 0, 0⟩

def inbound (es : List InSlot) : State := live.modCore fun c => { c with port := { c.port with inb := es } }

theorem witness_port :
    live.guard always = true ∧ live.core.port.ops = [] ∧ live.core.fences = [] ∧
    (let s := withWords (withWords live 0 pubRecord) 128 [0xFFF0000000000000]
     let g := (List.range 8).map fun k => s.core.word (8 * k)
     let cons := [BitVec.ofNat 64 (s.core.word 128)]
     touch 0 64 s = (s, .ok) ∧ s.core.badAt 0 64 = false ∧ pubValid g = true ∧ touch 128 8 s = (s, .ok) ∧ s.core.badAt 128 8 = false ∧
      consBad s cons = none ∧ releaseReady .stand s = true ∧ s.core.port.freeBlock = some (0, 0)) ∧
    (pubValid (patternRecord) = false ∧ consBad live [1#64 <<< 32] = some (9, 1#64 <<< 32) ∧ consBad live [farGva] = some (10, farGva) ∧
      (live.modCtx fun c => { c with stage := some .over }).core.act.stage = some .over) ∧
    (live.core.port.buffer 0x77 0x2FFFC0 = none ∧ live.core.port.used < 512 ∧ live.core.port.freeIdx ≠ [] ∧
      512 ≤ (inbound (List.replicate 512 ⟨0, 0, .notice notice producer 1 256 0⟩)).core.port.used) ∧
    (let s := inbound [⟨511, 0, .notice notice producer 1 256 0⟩]
     s.core.port.inb.find? (fun x => x.idx == 511) = some ⟨511, 0, .notice notice producer 1 256 0⟩ ∧ notice.peer = 4095) ∧
    (let s := live.modCtx fun c => { c with stage := some (.publishing pubRecord [0] none) }
     let full := live.modCore fun c => { c with port := { c.port with blocks := (List.range 256).map fun i =>
       { idx := i, tag := 0, gen := 1, flt := false, rcnt := 1, st := 2, prio := 0, spm := true, size := 64, loc := 0, due := 900, timeout := 900,
         reads := 0, claims := [] } } }
     s.core.act.stage = some (.publishing pubRecord [0] none) ∧ releaseReady .stand s = true ∧ releaseReady .stand (mapped true) = false ∧
      s.core.port.freeBlock = some (0, 0) ∧ full.core.port.freeBlock = none ∧
      (live.modCore fun c => { c with port := { c.port with ops := [(1, .recl 0)] } }).core.port.ops ≠ []) ∧
    512 ≤ ((withS live 1 512).src (.s 1)).toNat ∧ 2 ^ 32 ≤ ((withS live 1 0x100000000).src (.s 1)).toNat ∧
    ((4 : Nat) < (0x5000000000000000 : Word).toNat / 2 ^ 60 ∧ 511 < (0x1000000000000200 : Word).toNat % 2 ^ 60) ∧
    (63 < (64 : Word).toNat ∧ (24 : Word).toNat = (24 : Fin 25).val ∧ 25 ≤ (25 : Word).toNat ∧ (63 : Word).toNat ≤ 63) := by
  refine ⟨rfl, rfl, rfl, ⟨rfl, by decide +kernel, by decide +kernel, rfl, by decide +kernel, by decide +kernel, rfl, rfl⟩,
    by decide +kernel, by decide +kernel, by decide +kernel, ⟨rfl, rfl, rfl, by decide +kernel, by decide +kernel, by decide⟩,
    by decide +kernel, by decide +kernel, by decide, by decide⟩

/-! ### Events of the device -/

/-- A launch descriptor of one task, and its task record. -/
def descriptorWords : List Nat := [0x5A484C4400000001, 0xFFF0000000030040, 0xFFF0000000030080, 0xFFF0000000030088, 0, 0, 0, 0]
def recordWords : List Nat := [0xFFF0000000040000, 0x10000, 0, 0, 0, 0, 0, 0]

/-- A table of two levels at 0x10000 and 0x20000 that maps the first 256 MiB to itself, with a launch descriptor at 0x30000, its one record
at 0x30040, and an image base at 0x40000. -/
def tables : Memory := Memory.writes [(0x10000, 8), (0x10002, 2), (0x20000, 0x0E)]
  (cellsAt 0x30000 ((descriptorWords ++ recordWords).flatMap (toBytes 8)))

/-- Partition 0 holds the first channel group, slice and cluster, and those tables. -/
def owned : State :=
  let s := live.modPart 0 fun p => { p with state := 1, active := ⟨1, 1, 1⟩, shadow := ⟨1, 1, 1⟩, maproot := 0x10000, partstid := 9 }
  { s with mem := tables }

/-- A plies vector with ply 0 changed. -/
def plied (f : Ply → Ply) : State := { live with plies := live.plies.set 0 (f Ply.reset) }

theorem witness_bring_up :
    (∀ n ∈ [1, 2, 3, 4, 5, 6, 7, 8], ({ live with bringUp := n } : State).bringUp = n) ∧
    (∀ p : Fin 12, (Vector.replicate 12 { Ply.reset with st := PState.p0 })[p].st = .p0) ∧
    (live.plies[(0 : Fin 12)].st = .p3 ∧ live.plies[(0 : Fin 12)].busy = false) ∧
    (plied fun y => { y with busy := true }).plies[(0 : Fin 12)].busy = true ∧
    (let s := plied fun y => { y with st := .p0 }
     s.plies[(0 : Fin 12)].st ≠ .p1 ∧ plyMay s 0 .p0 (PState.p0.toward .p1) = false ∧ plyPath s 0 .p1 3 .p0 = false ∧
      plyPath live 0 .p2 3 .p3 = true) ∧
    (firmwareAdmitted = true ∨ firmwareAdmitted = false) ∧ (failingCores = [] ∨ failingCores ≠ []) ∧
    (let y := (plied fun y => { y with busy := true, goal := .p0, st := .p2 }).plies[(0 : Fin 12)]
     y.busy = true ∧ y.st.toward y.goal = y.goal ∧ ¬(y.st = .p3 ∧ y.stale = true)) ∧
    (let s := (plied fun y => { y with st := .p0, auto := true, idle := 4096 }).modCtx fun c => { c with st := .parked }
     plyIdle s 0 = true ∧ oneOwner s 0 = true ∧ 4096 ≤ s.plies[(0 : Fin 12)].idle) := by
  refine ⟨by decide, by decide +kernel, by decide +kernel, by decide +kernel, by decide +kernel, by cases firmwareAdmitted <;> simp,
    Classical.em _, by decide +kernel, by decide +kernel⟩

theorem witness_host : owned.mem.wf = true ∧ owned.wrote = [] ∧
    (owned.line (128 * 4)).bad = none ∧ owned.owner (128 * 4) = some 0 ∧ ({ live with time := 256 } : State).time % 256 = 0 ∧
    bridge 1 true 0x40000 2 owned = .ok [0x40000, 0x40001] ∧ bridge 1 false 0xFFFFFFF 1 owned = .ok [0xFFFFFFF] ∧
    bridge 1 true 0x10000000 1 owned = .fault 0x10000000 1 2 ∧ vfPart 1 = some 0 ∧ owned.lineBad 0x40000 = false ∧
    (let s := { live with time := 128, hostN := [(1, 3)] }
     s.time % 64 = 0 ∧ decide (16 ≤ (1 : Fin 25).val) = false ∧ s.watermark 1 ≠ 0 ∧ s.beatOut 12 31 = false ∧ s.resendOf 12 31 = none) ∧
    (regAt 0x10 = none ∧ regAt 0x13000 = some .planctl) ∧ (regSeen 1 .planctl live = false ∧ live.isReady = true) := by
  refine ⟨by decide +kernel, rfl, by decide +kernel, by decide +kernel, by decide, by decide +kernel, by decide +kernel, by decide +kernel, rfl,
    by decide +kernel, by decide +kernel, by decide +kernel, by decide +kernel⟩

/-- A task of one role; with gang size 0 no fuse decides its fit, since the fuses are open. -/
def task (st : TaskSt) (gangs : List Nat) : Task :=
  { serial := 5, gva := 0, launch := some 1, image := 0, dsig := some 255, nbt := none, prio := 0, gang := 0, span := 0, aff := none, deps := [],
    args := [], entered := 0, readyAt := 0, st := st, kept := some ⟨0, false, 0, 4096, 0, 0, [], []⟩, gangs := gangs, aborted := false,
    from_ := none, stamp := 0 }

def launch (next left : Nat) : Launch :=
  { id := 1, gva := 0, ntask := 1, tasks := 0xFFF0000000030040, donecnt := 0xFFF0000000030080, abortcnt := 0xFFF0000000030088, irq := some 3,
    next := next, left := left, aborted := 0, quiet := false }

/-- Partition 0 of `owned` changed. -/
def inPart (f : Part → Part) : State := owned.modPart 0 f

theorem witness_tasks_at_root :
    legStands none 0 live = false ∧
    (let s := inPart fun p => { p with tasks := [{ task .waiting [] with nbt := some 100 }] }
     readyNow (s.part 0) s.time { task .waiting [] with nbt := some 100 } = true) ∧
    (let s := inPart fun p => { p with launches := List.replicate 64 (launch 1 0) }
     ¬((s.part 0).launches.length + (s.part 0).doorbells.length < 64) ∧ (live.part 0).launches.length + (live.part 0).doorbells.length < 64) ∧
    (let s := inPart fun p => { p with doorbells := [(0xFFF0000000030000, 0)] }
     nextDoorbell 0 s = some 0xFFF0000000030000 ∧
      rootWords 0 0xFFF0000000030000 8 s = .ok descriptorWords ∧ descriptorOk descriptorWords = true ∧ rootAt 0 false 0xFFF0000000030080 s = .ok 0x30080) ∧
    (rootWords 0 0xFFF0000000030040 8 owned = .ok recordWords ∧ descriptorOk recordWords = false) ∧
    (let s := inPart fun p => { p with launches := [launch 0 0] }
     nextRecord 0 s = some (launch 0 0) ∧ rootWords 0 0xFFF0000000030040 8 s = .ok recordWords ∧ recordOk 0 (s.part 0) recordWords = true ∧
      rootAt 0 false (recordImage recordWords) s.drawn = .ok 0x40000) ∧
    (let s := inPart fun p => { p with tasks := [task .running []] }
     s.task? 0 5 = some (task .running []) ∧ (task .running []).gangs = []) ∧
    (let s := inPart fun p => { p with launches := [launch 1 0] }
     (s.part 0).launches.find? (fun x => x.id == 1) = some (launch 1 0) ∧ rootAt 0 true (launch 1 0).donecnt s = .ok 0x30080 ∧
      s.lineBad 0x30080 = false) := by
  refine ⟨rfl, by decide +kernel, by decide +kernel, by decide +kernel, by decide +kernel, by decide +kernel, by decide +kernel,
    by decide +kernel⟩

def tenq (result : Option Word) : Tenq := ⟨9, ⟨0, 0⟩, 0, 0xFFF0000000030040, false, none, some 4, result⟩

/-- A TENQ at the root with room and without, and its timeout. -/
theorem witness_tenq :
    (let s := { owned with tenqs := [tenq none], time := 4100 }
     s.tenqs.find? (fun x => x.id == 9) = some (tenq none) ∧ (s.part 0).tasksHeld < (s.part 0).capacity ∧ 4 + 4096 ≤ s.time) ∧
    (let s := inPart fun p => { p with schctl := 0 }
     (s.part 0).capacity ≤ (s.part 0).tasksHeld) := by
  refine ⟨by decide +kernel, by decide +kernel⟩

/-- A gang of one member in the core in view. -/
def member : Member := ⟨1, 0, false, none, none⟩
def single : Gang := { pair with size := 1, task := 5, members := [member] }

/-- The state with that gang, for the task in state `st`. -/
def ganged (st : TaskSt) (g : Gang) : State :=
  { (inPart fun p => { p with tasks := [task st [7]], frbase := 0xFFF0000000080000, frcnt := 1 }) with gangs := [g] }

theorem witness_placement :
    (let s : State := { (inPart fun p => { p with tasks := [task .ready []] }) with
       time := 96, plies := live.plies.set 0 { Ply.reset with st := .p0 } }
     s.time % 8 = 0 ∧ s.isReady = true ∧ nextServed s 25 (s.round / 32 % 24) (s.round % 32) = some (0, 1) ∧
      eligible (s.part 0) s.time = [task .ready []] ∧ ∃ room, placeFor s 0 (task .ready []) = some ([room], false)) ∧
    (let s : State := { (inPart fun p => { p with tasks := [task .ready []], topTask := 5 }) with time := 65536 }
     ranked (s.part 0) s.time = [task .ready []] ∧ (s.part 0).topSince + 2 ^ (s.part 0).resv ≤ s.time ∧
      (s.part 0).reserving.contains 5 = false ∧ (s.part 0).pen = false) := by
  refine ⟨⟨rfl, rfl, by rfl, by decide +kernel, _, by rfl⟩, by decide +kernel⟩

theorem witness_gangs :
    memberKey single member = live.key ∧
    (let g := { single with start := some 100 }
     let s := ganged .placing g
     s.gang? g.id = some g ∧ s.task? g.part g.task = some (task .placing [7]) ∧ g.start = some s.time) ∧
    (let g := { single with grace := some 100 }
     let s := ganged .running g
     s.gang? g.id = some g ∧ s.core.act.gid = g.id ∧ g.grace = some 100 ∧ 100 ≤ s.time ∧ s.core.act.st = .running ∧
      s.core.act.phase ≠ .boundary) ∧
    (let s := (ganged .running single).modCtx fun c => { c with st := .parked }
     saveDue s single = true ∧ s.core.act.st ≠ .done ∧ freeSlotsOf (s.part 0) = [0]) ∧
    (let m : Member := { member with frame := some 0xFFF0000000080000 }
     let g := { single with saving := true, flushed := true, members := [m] }
     let s := ganged .running g
     memberDrained s s.key = true ∧ flushing s.core = false ∧ writable 0 0xFFF0000000080000 0x7E200 s = true ∧ arrivalsOut s 7 = false) ∧
    (let s := live.modCtx fun c => { c with phase := .drain, bun := none }
     endDrained s s.key = true ∧ s.core.dirtyGrans 64 = [] ∧ flushing s.core = false) ∧
    (live.modCtx fun c => { c with st := .frozen }).core.act.replay = [] ∧ live.core.act.st ≠ .frozen ∧ live.core.act.st ≠ .empty := by
  refine ⟨by decide, by decide +kernel, by decide +kernel, by decide +kernel, by decide +kernel, by decide +kernel, by decide +kernel⟩

/-- A saved frame that a restore accepts: the words of its header (R87, R88), everything else zero. -/
theorem witness_restore :
    let f : Word := 0xFFF0000000080000
    let m : Member := { member with frame := some f }
    let g := { single with restoring := true, members := [m] }
    let s : State := { ganged .saved g with mem := tables.writes (cellsAt 0x80000 (toBytes 8 0x5A48434600010004)) }
    s.gang? g.id = some g ∧ headerOk [0x5A48434600010004, 0, 0, 0, 0, 0, 0, 0] = some false ∧ m.frame = some f ∧ m.role ≠ 0 := by
  refine ⟨by decide +kernel, by decide +kernel, rfl, by decide⟩

/-- A granule that fills from the page of a cached leaf. -/
def filling : State := (mapped true).modCore fun c =>
  { c with regions := c.regions.set 5 ⟨0xFFF0000000010000, 4096, 8192, false, 0, 1⟩, gran := [(2, .filling 0 0x30000)] }

theorem witness_maps :
    (filling.core.granSt 2 = .filling 0 0x30000 ∧ filling.core.regionAt (4096 * 2) = some (5, ⟨0xFFF0000000010000, 4096, 8192, false, 0, 1⟩) ∧
      filling.older = [] ∧ (∀ j < 32, filling.lineBad (0x30000 + 128 * j) = false) ∧
      (filling.modCore fun c => { c with meshTok := some 65536 }).meshOpen ⟨0, 0⟩ 0 4096 = false ∧
      ((filling.modCore fun c => { c with meshTok := some 65536 }).modPart 0 fun p => { p with plyTok := [(0, 65536)] }).meshOpen ⟨0, 0⟩ 0 4096 = true) ∧
    (let s := owned.modCore fun c => { c with walks := [(4, .pending)] }
     (4, WalkSt.pending) ∈ s.core.walks ∧ s.core.heldGrans 4 = [] ∧ s.walk s.core.act.part (4 * 65536) = .leaf ⟨true, 0, 0, true, 0⟩ ∧
      s.walk s.core.act.part (4096 * 65536) = .fault 1 2) ∧
    (let s : State := { owned with mem := tables.write 0x20000 0x16 }
     s.walk s.core.act.part (4 * 65536) = .migrating) ∧
    (let s := inPart fun p => { p with mapBusy := true, mapCmd := 3 }
     (s.part 0).mapBusy = true ∧ (s.part 0).mapCmd = 3 ∧ s.pageBusy 0 = false) ∧
    (owned.core.act.st ≠ .empty ∧ (owned.part 0).cntbase = 0) ∧
    (let s := inPart fun p => { p with cntbase := 0xFFF0000000100000, smpctl := 0x20001 }
     (s.part s.core.act.part).cntbase ≠ 0 ∧ rootAt 0 true (0xFFF0000000100000 + BitVec.ofNat 64 (512 * 0 + 8 * 24)) s = .ok 0x1000C0 ∧
      sampleDue s s.key = true ∧ (s.part 0).smphead - (s.part 0).smptail + 4 ≤ 2 ^ (s.part 0).smplog) ∧
    2 ^ 9 < 512 - 0 + 4 := by
  refine ⟨⟨rfl, by decide +kernel, rfl, by decide +kernel, by decide +kernel, by decide +kernel⟩, by decide +kernel, by decide +kernel, by decide +kernel, by decide +kernel,
    ⟨by decide +kernel, by decide +kernel, by decide +kernel, by decide +kernel⟩, by decide⟩

/-- Two records of one row of eight words (R280): scratchpad at 4096, and the page of a cached leaf. -/
def spmRecord : List Nat := [0xFF001000, 8 + 1, 0, 0, 0, 0, 4, 8, 0, 0, 0, 0, 0, 0, 0, 0]
def pageRecord : List Nat := [0xFFF0000000010000, 1, 0, 0, 0, 0, 4, 8, 0, 0, 0, 0, 0, 0, 0, 0]

/-- A descriptor that moves the first to the second, with records at 128 and 256. -/
def descriptor : List Nat := [256 * 2 ^ 32 + 128, 8 + 2 ^ 16 + 2 ^ 32 + 2 ^ 48, 1 + 9 * 2 ^ 16, 0, 0, 0, 0, 0]

def theBox : Box := boxOf descriptor spmRecord pageRecord

def copying (st : Nat) (box : Option Box) : State :=
  (withWords (withWords (withWords (mapped true) 0 descriptor) 128 spmRecord) 256 pageRecord).modCore fun c =>
    { c with copies := [copyCommand 1 st box], toks := [] }

theorem witness_copies :
    (let s := copying 1 none
     holdsRelease s = false ∧ releaseTouch s (copyCommand 1 1 none) = (s, .ok) ∧ s.core.badAt 0 64 = false ∧ s.core.words 0 8 = descriptor ∧
      s.core.words 128 16 = spmRecord ∧ s.core.words 256 16 = pageRecord) ∧
    (layoutValid (copying 1 none) spmRecord = true ∧ layoutValid (copying 1 none) pageRecord = true ∧
      boxValid .move descriptor theBox = true ∧ 0 < theBox.units ∧ theBox.hmode = false ∧
      (copying 1 none).core.clipCredit .move theBox ((copying 1 none).core.badRows .move theBox) = 0) ∧
    layoutValid live (List.replicate 16 0) = false ∧
    (let b := boxOf ((256 * 2 ^ 32 + 128) :: (16 + 2 ^ 16 + 2 ^ 32 + 2 ^ 48) :: descriptor.drop 2) spmRecord pageRecord
     let s := copying 1 none
     b.hmode = false ∧ 0 < s.core.clipCredit .move b (s.core.badRows .move b) ∧ s.core.clipCredit .move b (s.core.badRows .move b) < b.total ∧
      s.core.creditAt[(0 : Fin 4)] < s.time ∧ ({ s with time := 0 } : State).time ≤ s.core.creditAt[(0 : Fin 4)]) ∧
    (live.modCore fun c => { c with spBad := [4] }).core.indexBad .gather { theBox with idx := 4 } 0 = true ∧
    (let s := copying 2 (some theBox)
     let w := theBox.work .move (s.core.indexEntry .move theBox 0) 0
     copyHead s 0 = some (copyCommand 1 2 (some theBox)) ∧ w.clipped = false ∧ w.moves = true ∧
      s.core.indexBad .move theBox 0 = false ∧ placeRead 1 w.src w.bytes (s.modCore fun k => { k with lastQ := 0 }) = (s, .val 0) ∧
      placeDest w.dst w.bytes s = (s, .own 0x30000) ∧ s.engineWrites < 512 ∧
      s.core.copies.filter (fun x => x.id == 1) = [copyCommand 1 2 (some theBox)] ∧ (copyCommand 1 2 (some theBox)).held = []) := by
  refine ⟨⟨rfl, by decide +kernel, by decide +kernel, by decide +kernel, by decide +kernel, by decide +kernel⟩, by decide +kernel, by decide +kernel,
    by decide +kernel, by decide +kernel, by decide +kernel, by decide +kernel, by decide +kernel, by decide +kernel, by decide +kernel, by rfl,
    by decide +kernel⟩

theorem witness_copy_acks :
    (let r := request (.copyWrite 1 4 [] none) true 0
     let s := { (copying 2 (some theBox)).modCore (fun c => { c with copies := [{ copyCommand 1 2 (some theBox) with unacked := 1 }] }) with reqs := [r] }
     s.req? r.id = some r ∧ s.core.copies.length = 1 ∧ (0 < 4 ∧ 4 < 8)) ∧
    live.core.stoppedCopy 0 = none ∧ (copying 3 none).core.stoppedCopy 0 = some (copyCommand 1 3 none) := by
  refine ⟨by decide +kernel, rfl, rfl⟩

theorem witness_streams :
    (feeding.core.feeds[(1 : Fin 8)] = some (feed false false [] []) ∧ streamReadReady feeding.core 1 = true ∧
      touchAll ((pat false false).runs 0) feeding = (feeding, .ok)) ∧
    (let s := feeding.modCore fun c => { c with feeds := c.feeds.set 3 (some (feed true true [] [(0, 0, some 7)])) }
     s.core.feeds[(3 : Fin 8)] = some (feed true true [] [(0, 0, some 7)]) ∧ streamHeld s.core 3 = false ∧
      s.core.frontWindow 3 (feed true true [] [(0, 0, some 7)]) = some (0, 0, 7) ∧ touchAll ((pat true true).runs 0) s = (s, .ok) ∧
      0 < (pat true true).bytes 0) := by
  refine ⟨⟨by decide +kernel, by decide +kernel, by rfl⟩, by decide +kernel, by decide +kernel, by decide +kernel, by rfl, by decide +kernel⟩

/-- A beat from the core in view that is due, and one that meets it. -/
def beat (id : Nat) (strip : Nat) (tick : Nat) (entered : Bool) : RailBeat :=
  { id := id, cl := 0, west := false, strip := strip, tick := tick, from_ := ⟨0, 0⟩, x := 3, entered := entered, dead := none, gid := 7, epoch := 96 }

theorem witness_rails :
    (let s := live.modCtx fun c => { c with stage := some (.pauseUntil 100) }
     s.core.act.stage = some (.pauseUntil 100) ∧ 100 ≤ s.time) ∧
    (let one : State := { live with gangs := [single] }
     one.gang? 7 = some single ∧ one.notDone single ≤ ((List.range 96).filter fun r => (1#96 <<< 1).getLsbD r).length ∧
      ¬paired.notDone pair ≤ ((List.range 96).filter fun r => (1#96 <<< 1).getLsbD r).length) ∧
    (let s : State := { live with rails := [beat 1 0 98 false] }
     s.rails.filter (fun x => x.id == 1) = [beat 1 0 98 false] ∧ s.time ≤ 98 + 14 ∧ (beat 1 0 98 false).from_ = s.key) ∧
    (let s : State := { paired with rails := [beat 1 2 98 false, beat 2 0 96 true] }
     s.time = 98 + 2 ∧ (beat 2 0 96 true).on 2 s.time = true ∧ (beat 1 2 98 false).gid = s.core.act.gid ∧ s.core.act.st = .running ∧ s.core.act.inXsel = none) ∧
    (let b : Bundle := { bundle with slots := [.xsel ⟨always, .v 6, false, 4⟩] }
     let s := live.modCtx fun c => { c with stage := some (.selecting 100), bun := some b }
     s.core.act.st = .running ∧ s.core.act.stage = some (.selecting s.time) ∧ s.core.act.inXsel = some ⟨always, .v 6, false, 4⟩) := by
  refine ⟨by decide, by decide +kernel, by decide +kernel, by decide +kernel, by decide +kernel⟩

theorem witness_clearing_events :
    (let s : State := { live with clr := { live.clr with active := [(100 % 64, 0)], queue := [⟨0, 0, 100, entry 1 0x1FF8 4⟩] } }
     s.slot ≠ 0 ∧ s.slot ≠ 16 ∧ s.slot ≠ 32 ∧ planStn (planEntry s.clr.active 0 s.slot) ≠ 15 ∧ s.beatOut 0 0 = false ∧ s.resendOf 0 0 = none ∧
      (takeEntries 0 0 s).1 ≠ [] ∧
      ({ s with clr := { s.clr with resend := [⟨1, 0, 0, 90, [entry 1 0 0], true⟩] } } : State).resendOf 0 0 = some ⟨1, 0, 0, 90, [entry 1 0 0], true⟩) ∧
    (let s : State := { (live.modPart 0 fun p => { p with held := [(4096, 8192)] }) with time := 80 }
     s.slot = 16 ∧ s.beatOut 12 31 = false ∧ s.resendOf 12 31 = none ∧ zeroEntries s ≠ []) ∧
    (let b : Beat := ⟨4, 0, 0, 96, [entry 2 0 1], false⟩
     let s : State := { cleared with clr := { cleared.clr with beats := [b] } }
     s.clr.beats.find? (fun x => x.id == 4) = some b ∧ (entry 2 0 1).key = some s.key ∧ s.plies[plyOf (entry 2 0 1).cl].bad = false) ∧
    (cleared.hears 0 = true ∧ cleared.hears 12 = true ∧ live.hears 0 = false) ∧
    ({ live with time := 128, bringUp := 6, clr := { live.clr with resyncReq := [0] } } : State).passDue = true ∧
    (let s : State := { live with time := 65600, clr := { live.clr with resyncRun := [0], resyncF := 64 } }
     s.clr.resyncRun ≠ [] ∧ s.clr.resyncF + 65536 ≤ s.time) := by
  refine ⟨by decide +kernel, by decide +kernel, by decide +kernel, by decide +kernel, by decide +kernel, by decide +kernel⟩

theorem witness_plan : live.clr.busy = false ∧ (∀ i < 960, planRefused live (i / 64) (i % 64) = false) ∧
    planRefused { live with clr := { live.clr with shadow := [(959, 13)] } } (959 / 64) (959 % 64) = true ∧
    (claRefused 0 0x0000100000001000 cleared = false ∧ claRefused 1 0x0000100000001000 cleared = true) := by
  refine ⟨rfl, by decide +kernel, by decide +kernel, by decide +kernel⟩

/-- Task 3 of one gang of two roles. -/
def consumes (st : TaskSt) (gangs : List Nat) : Task := { task st gangs with serial := 3, gang := 2, span := 1 }

/-- A running task 3 whose context is that in view, and a block of it. -/
def consumer : State :=
  (owned.modPart 0 fun p => { p with tasks := [consumes .running [7]] }).modCtx fun c => { c with task := 3 }

def block (st rcnt due : Nat) : Block :=
  { idx := 5, tag := 0x77, gen := 1, flt := false, rcnt := rcnt, st := st, prio := 0, spm := true, size := 64, loc := 256, due := due, timeout := 900,
    reads := 0, claims := [] }

def publishing (b : Block) : State := consumer.modCore fun c => { c with port := { c.port with blocks := [b] } }

theorem witness_notices :
    live.portTask producer = none ∧ (consumer.portTask producer = some (consumes .running [7]) ∧ producer.gang < 1 ∧ producer.role < 2) ∧
    (consumer.portCore producer = some consumer.key ∧ consumer.core.act.ended = false ∧ consumer.core.port.used < 512 ∧
      ((consumer.part 0).hold.any fun h => h.2.1 == producer) = false) ∧
    (inPart fun p => { p with tasks := [consumes .saved []] }).portTask producer = some (consumes .saved []) ∧
    (let s := publishing (block 2 1 100)
     s.portCore producer = some s.key ∧ s.core.port.block? 0x105 = some (block 2 1 100) ∧ (block 2 1 100).due = s.time) ∧
    (let s := live.modCtx fun c => { c with stage := some (.publishing pubRecord [0] (some 100)) }
     s.core.act.stage = some (.publishing pubRecord [0] (some 100)) ∧ 100 ≤ s.time) ∧
    ({ notice with stid := some 9, peer := 5 } : Notice).stid = some 9 ∧ owned.stidPart 9 = some 0 ∧ owned.stidPart 8 = none := by
  refine ⟨by decide +kernel, by decide +kernel, by decide +kernel, by decide +kernel, by decide +kernel, by decide +kernel⟩

/-- A notice in entry 4 and a landing buffer of its tag in entry 9, with an idle scheduler. -/
def offering : State := inbound [⟨4, 0, .notice notice producer 2 256 0⟩, ⟨9, 1, .landing 0x77 0x1000 4096 64 3⟩]

def pull (next : Nat) : Pull :=
  { id := 6, idx := 4, chunk := 64, next := next, count := 1, resolved := 0, withdrawn := false, base := 0x1040, buf := 9, took := 64, credited := 0,
    h := 3, fate := 0 }

def pulling (next : Nat) : State :=
  (inbound [⟨4, 0, .notice notice producer 3 256 0⟩, ⟨9, 1, .landing 0x77 0x1000 4096 128 3⟩]).modCore fun c =>
    { c with port := { c.port with pulls := [pull next], outstanding := next } }

def chunk (outcome : Nat) : Chunk :=
  { id := 8, key := ⟨0, 0⟩, ctx := 7, pull := 6, idx := 4, n := 0, off := 0, size := 64, first := true, src := producer, block := 0x105, hops := 0,
    outcome := outcome, data := List.replicate 64 0, held := false }

theorem witness_pulls :
    (grantReady offering = true ∧ offering.core.act.chunkMode = 0 ∧ ((grantChoice offering).map fun r => (r.n, r.e.idx)) = some (notice, 4) ∧
      offering.core.port.room notice = some (9, 0x1000, 4096, 64, 3) ∧ 0 < offering.core.act.chunkSize) ∧
    (chunkReady (((pulling 0).modPart 0 fun p => { p with meters := [(0, 1024)] }).modCtx fun c => { c with sys := { c.sys with pace := 1 } }) = true ∧ nextChunk (pulling 0).core = some (pull 0, notice, producer, 0, 64)) ∧
    (let s : State := { publishing (block 2 1 900) with chunks := [chunk 0] }
     s.chunks.find? (fun y => y.id == 8) = some (chunk 0) ∧ s.portCore producer = some s.key ∧
      s.core.port.block? 0x105 = some (block 2 1 900) ∧ s.saving = false ∧ s.core.act.stoppedForSave = false ∧
      touch 256 64 s = (s, .ok) ∧ s.core.badAt 256 64 = false ∧ s.core.port.waits = [] ∧ claimOf false 6 ∉ (block 2 1 900).claims ∧
      s.meshOpen s.key s.core.act.part 64 = false ∧
      ((s.modCore fun c => { c with meshTok := some 1024 }).modPart 0 fun p => { p with plyTok := [(0, 1024)] }).meshOpen s.key s.core.act.part 64 = true ∧
      (s.modCtx fun c => { c with st := .parked }).core.act.stoppedForSave = true) ∧
    (let s : State := { pulling 1 with chunks := [chunk 0] }
     s.core.port.pulls.filter (fun y => y.id == 6) = [pull 1] ∧ s.core.port.notice? 4 = some (notice, producer) ∧
      touch 0x1040 64 s = (s, .ok)) := by
  refine ⟨by decide +kernel, by decide +kernel,
    ⟨by decide +kernel, by decide +kernel, by decide +kernel, by rfl, by rfl, by rfl, by decide +kernel, by decide +kernel, by decide +kernel, by decide +kernel, by decide +kernel,
     by decide +kernel⟩, by decide +kernel, by decide +kernel, by rfl⟩

theorem witness_canopy :
    (let w : Word := 0x8000000000000000
     w.getLsbD 63 = true ∧ w.getLsbD 3 = false ∧ (8 : Word).getLsbD 3 = true ∧ joined.expects 0 = some 3481 ∧ 60 ≤ (60 : Fin 64).val) ∧
    live.towardBusy 5 = false ∧
    (let r := { request .lda false 0 with remote := some 5, gva := farGva, sent := 90 }
     let s : State := { joined with reqs := [r] }
     s.towardBusy 5 = true ∧ s.req? r.id = some r) ∧
    (let r := { request .lda false 0 with remote := some 5, gva := farGva }
     let s : State := { joined with reqs := [r] }
     let shares := s.modPart 0 fun p => { p with reqctl := 0xFF }
     let up : State := { shares with link := { shares.link with ports := shares.link.ports.set 0 8 } }
     s.req? r.id = some r ∧ (s.part 0).reqctl.toNat % 2 ^ 8 = 0 ∧ ¬((shares.link.routePend.any fun x => x.1 == 5) = true ∨
        (shares.part r.part).reqctl.toNat % 2 ^ 8 = 0 ∨ reqTokens (shares.part r.part) 5 < 256 ∨ shares.earlierRemote r 5 = true) ∧
      shares.pathUp 5 (r.gva.getLsbD 7) = false ∧ reqTokens (((s.modPart 0 fun p => { p with reqbuckets := [(5, 255)] })).part 0) 5 < 256 ∧
      up.pathUp 5 (r.gva.getLsbD 7) = true ∧ up.inject r = none ∧ (up.inject { r with injected := true }).isSome = true) ∧
    (remoteTarget 9 true 0x30080 owned = .ok 0x30080 ∧ owned.lineBad 0x30080 = false ∧ remoteTarget 8 true 0x30080 owned = .refused 4 ∧
      owned.ownDevice (peerOf 0xFFF0000000030080) = true ∧ owned.ownDevice (peerOf farGva) = false ∧ owned.transitPort 5 = none ∧
      ({ joined with link := { joined.link with ports := joined.link.ports.set 0 8 } } : State).transitPort 5 = some 0 ∧
      ({ owned with lines := [(0x601, ⟨1, some 0, false, 0, false⟩)] } : State).lineBad 0x30080 = true ∧
      remoteTarget 9 true 0x30080 { owned with mem := tables.write 0x20000 0x16 } = .wait) ∧
    (let g : Group := ⟨3, 9, 0xFFF0000000030080, true, 36, false, [(⟨1, 1, 7, none⟩, 5), (⟨2, 3, 8, none⟩, 6)]⟩
     let s : State := { owned with link := { owned.link with groups := [g] } }
     s.link.groups.find? (fun x => x.id == 3) = some g ∧ g.openedAt + 64 ≤ s.time ∧ s.ownDevice (peerOf g.gva) = true ∧ g.members.length < 31) ∧
    live.link.join = false ∧ joined.link.join = true := by
  refine ⟨by decide +kernel, by decide +kernel, by decide +kernel, by decide +kernel, by decide +kernel,
    by decide +kernel, by decide +kernel, by decide +kernel⟩

theorem witness_partitions :
    (let s := live.modPart 0 fun p => { p with shadow := ⟨1, 1, 1⟩ }
     partBusy 0 s = false ∧ (s.part 0).state = 0 ∧ (s.part 0).shadow.lacks = false ∧ (live.part 0).shadow.lacks = true) ∧
    (partBusy 0 owned = false ∧ (owned.part 0).state = 1 ∧ partBusy 0 (inPart fun p => { p with busy := true }) = true) ∧
    (let s := (inPart fun p => { p with state := 2, busy := true, target := ⟨0, 0, 0⟩ }).modCtx fun c => { c with st := .empty }
     applyReady s 0 = true ∧ applyReady owned 0 = false) ∧
    (let s := ganged .running single
     (s.part 0).tasks = [task .running [7]] ∧ s.gang? 7 = some single ∧ s.core.act.gid = 7 ∧ s.core.act.st ≠ .empty) ∧
    (task .ready []).st = .ready := by
  refine ⟨by decide +kernel, by decide +kernel, by decide +kernel, by decide +kernel, rfl⟩

/-! ### Ways, tokens and queues -/

/-- A slot plan that gives partition 0 slots of stations 0, 1 and 12 on column 1. -/
def planning (s : State) : State := { s with clr := { s.clr with active := [(64, 0), (65, 1), (66, 12)] } }

/-- One result of each kind, two of one slot, and what a register write meets. -/
theorem witness_landing_kinds :
    (∀ w ∈ [RegWrite.s 63 1, .k 7 1, .v 31 1, .p 7 true, .feed 3 1 1, .m ⟨.adia, 7⟩ 0x3F7F 1 1],
      ({ inFlight with writes := [w] } : Flight).writes = [w] ∧ inFlight.refresh = none) ∧
    (feeding.core.feeds[(3 : Fin 8)] = some (feed true false [] [])) ∧
    (let g : Flight := { inFlight with due := 11, latch := some 2 }
     inFlight.slot = g.slot ∧ inFlight.latch = some 1 ∧ g.latch = some 2 ∧ inFlight.due < g.due) ∧
    (let t : Flight := { inFlight with cyc := 8 }
     t.due = inFlight.due ∧ t.cyc < inFlight.cyc) := by
  refine ⟨by decide +kernel, rfl, ⟨rfl, rfl, rfl, by decide⟩, rfl, by decide⟩

/-- The header behind a skipped loop's end: in range, filled and intact. -/
theorem witness_control_effects :
    (let s := placedAdd
     ({ bundle with ctl := some (.skip 0) } : Bundle).ctl = some (.skip 0) ∧ s.core.fetchable 0 4 = true ∧
      (∀ g ∈ gransOf 0 4, s.core.granSt g = .clean) ∧ ∀ i < 4, s.core.spBad.contains (s.core.physOff (0 + i)) = false) ∧
    (let s := placedAdd.modCtx fun c => { c with loops := [⟨0, 4, 64, 0⟩] }
     s.core.act.loops = [⟨0, 4, 64, 0⟩] ∧ s.core.fetchable 0 4 = true) ∧
    (∀ c ∈ [Ctl.leave, .eret, .fin], ({ bundle with ctl := some c } : Bundle).ctl = some c) ∧ bundle.ctl = none ∧
    (∀ l ∈ live.core.act.loops, l.fin.toNat ≠ bundle.addr) := by
  refine ⟨⟨rfl, by decide +kernel, by decide +kernel, by decide +kernel⟩, ⟨rfl, by decide +kernel⟩, by decide +kernel, rfl, by decide⟩

/-- Operands of one instruction: bound, unbound, empty, with an error, and a destination not bound or full. -/
theorem witness_feed_forms :
    feedForm (.vadd ⟨always, .f 5, .v 1, .f 5, .f32⟩) = some ([.v 1, .f 5], .f 5) ∧ feedForm (.vbc ⟨always, .f 6, .s 1, .i8⟩) = some ([], .f 6) ∧
    feedForm (.vmwr ⟨always, .f 2, ⟨.row, 1⟩, 2⟩) = some ([.f 2], .none) ∧ feedForm (.vqnt ⟨always, .v 6, .f 0, 4, .e2m1⟩) = some ([.f 0], .v 6) ∧
    feeding.core.dstReady (.f 5) = .bad 37 ∧ feeding.core.dstReady (.f 1) = .bad 33 ∧ feeding.core.dstReady .none = .ok ∧
    lane 32 (feeding.core.oldV (.v 6)) 0 = 0 := by
  refine ⟨rfl, rfl, rfl, rfl, rfl, rfl, rfl, by decide +kernel⟩

/-- Requests for which the plan has slots and tokens stand, and one for which it has none; one that crosses plies, whose beats may be
lost. -/
theorem witness_ways :
    (∀ k ∈ [ReqKind.store, .stl, .lda, .atom .add, .cas 0],
      let r := { request k false 0 with injected := true }
      let s := planning { live with reqs := [r] }
      r.mayGo s = true ∧ r.mayGo { live with reqs := [r] } = false ∧ s.blocked r = false ∧ s.lineBad r.pa = false ∧ s.sound) ∧
    (let r := { request .lda false 0 with key := ⟨2, 0⟩, injected := true }
     let s := planning { live with reqs := [r] }
     r.crosses s = true ∧ r.mayGo s = true ∧ s.blocked r = false ∧ r.kind.consumes = true ∧
       (Config.beatLost s.seed = true ∨ Config.beatLost s.seed = false)) ∧
    (let s := planning ((live.modCore fun c => { c with meshTok := some 128 }).modPart 0 fun p => { p with plyTok := [(0, 128)] })
     let r := request .lda false 0
     r.injected = false ∧ ({ s with reqs := [r] } : State).meshOpen r.key r.part r.size = true ∧
       ({ s with reqs := [r] } : State).blocked r = false ∧ r.mayGo { s with reqs := [r] } = true) := by
  refine ⟨?_, ⟨by decide +kernel, by decide +kernel, by decide +kernel, rfl, by cases Config.beatLost _ <;> simp⟩, by decide +kernel⟩
  intro k h
  simp only [List.mem_cons, List.not_mem_nil, or_false] at h
  rcases h with rfl | rfl | rfl | rfl | rfl <;> exact ⟨by decide +kernel, by decide +kernel, by decide +kernel, by decide +kernel, rfl, rfl⟩

/-- An operation of any kind that is due, with the effect that its operands have. -/
theorem witness_tile_effects (w : TileWork) :
    let o := { tileOp w 1 (some (tileEffect live.core w)) (some 70) with finish := 80 }
    let s := tiled fun t => { t with ops := [o] }
    dueTile s = some o ∧ o.eff = some (tileEffect s.core o.work) ∧ o.raced = [] := by
  refine ⟨by cases w <;> rfl, ?_, rfl⟩
  cases w <;> rfl

/-- An XSND that goes on too late, an XSEL that meets a collision, and one whose capture waits for room or goes on. -/
theorem witness_exchange_late :
    (let s := phased.modCtx fun c => { c with stage := some .sending }
     s.core.act.stage = some .sending ∧ s.core.readV (.v 3) = .val 0 ∧ s.core.sendBuf.length < 8 ∧ s.core.act.epoch = some 96 ∧
      96 + (3#14).toNat < s.time ∧ ¬96 + (4#14).toNat < s.time) ∧
    (let s : State := { phased with gangs := [{ pair with hits := [(true, 5, 99)] }] }
     s.core.act.stage = none ∧ s.railHit true (96 + (4#14).toNat) = some (5, 99) ∧ s.railHit false (96 + (4#14).toNat) = none) ∧
    (let s := feeding.modCtx fun c => { c with stage := some (.captured 7) }
     s.core.act.stage = some (.captured 7) ∧ s.core.dstReady (.f 4) = .full ∧ s.core.dstReady (.f 3) = .ok) := by
  refine ⟨by decide +kernel, by decide +kernel, by decide +kernel⟩

/-- The port engine of the consumer's core with one operation in its queue. -/
def engine (op : PortOp) (es : List InSlot) : State :=
  consumer.modCore fun c => { c with port := { c.port with ops := [(7, op)], inb := es } }

def buffer : InSlot := ⟨9, 1, .landing 0x77 0x1000 4096 64 3⟩

/-- The operations of the queue: fenced and not, buffers that are used and not, notices to decline, and a notice to send. -/
theorem witness_port_queue :
    (let s := engine (.land 0x77 3 0x1000 4096 true) []
     let t := s.modCore fun c => { c with fences := [⟨0x20, 6⟩], pend := [(5, 4)] }
     s.core.port.ops = [(7, .land 0x77 3 0x1000 4096 true)] ∧ fenceBlocks s 5 7 = false ∧ fenceBlocks t 5 7 = true ∧
      s.core.port.buffer 0x77 0x1000 = none ∧ s.core.port.inb.length < 512) ∧
    (let s := engine (.land 0x77 3 0x1000 0 true) [buffer]
     let t := s.modCore fun c => { c with port := { c.port with pulls := [pull 0] } }
     s.core.port.buffer 0x77 0x1000 = some buffer ∧ (s.core.port.pulls.any fun p => p.buf == buffer.idx) = false ∧
      (t.core.port.pulls.any fun p => p.buf == buffer.idx) = true ∧ (s.part s.core.act.part).hold = []) ∧
    (let e : InSlot := ⟨4, 0, .notice notice producer 1 256 0⟩
     let s := engine (.decl 4) [e]
     s.core.port.inb.find? (fun x => x.idx == 4) = some e ∧ notice.peer = 4095 ∧ s.farPort producer = false ∧ s.routeWaits 5 = false) ∧
    (let w : Word := 0xFFF0010000000003
     let s := engine (.pub 0x105 [w] notice) []
     noticeWaits w s = false ∧ s.ownDevice (Machine.consumer w s).2 = true ∧ s.farPort (Machine.consumer w s).1 = false ∧ s.core.port.block? 0x105 = none) ∧
    (publishing (block 1 1 900)).core.port.block? 0x105 = some (block 1 1 900) := by
  refine ⟨by decide +kernel, by decide +kernel, by decide +kernel, by decide +kernel, by decide +kernel⟩

/-- The result of a TENQ on its way back, which the plan gives a slot, and the result that waits for it. -/
theorem witness_tenq_result :
    let f : Flight := { inFlight with latch := none, writes := [.s 5 0], need := some 9 }
    let s : State := { planning (owned.modCtx fun c => { c with flights := [f] }) with tenqs := [tenq (some 5)] }
    s.tenqs.find? (fun y => y.id == 9) = some (tenq (some 5)) ∧ (tenq (some 5)).key = s.key ∧ s.legSlots 12 0 ≠ [] ∧
      f ∈ s.core.act.flights ∧ f.need = some (tenq (some 5)).id ∧ owned.legSlots 12 0 = [] := by
  decide +kernel

/-- The gang that `witness_restore` restores, over a memory that holds the header of its frame. -/
def saved : Gang := { single with restoring := true, members := [{ member with frame := some 0xFFF0000000080000 }] }

def restoring : State :=
  { ganged .saved saved with mem := Memory.writes [(0x10000, 8), (0x10002, 2), (0x20000, 0x0E)] (cellsAt 0x80000 (toBytes 8 0x5A48434600010004)) }

/-- Every byte of the frame translates to itself. -/
theorem restoring_at (n : Nat) (h : n < 0x80000) : rootAt 0 false (0xFFF0000000080000 + BitVec.ofNat 64 n) restoring = .ok (0x80000 + n) := by
  have hv : (0xFFF0000000080000 + BitVec.ofNat 64 n : Word).toNat = 0xFFF0000000080000 + n := by
    rw [BitVec.toNat_add, BitVec.toNat_ofNat, show (0xFFF0000000080000 : Word).toNat = 0xFFF0000000080000 from by decide]; omega
  have hw (va : Nat) (hva : va < 2 ^ 28) : restoring.walk 0 va = .leaf ⟨true, 0, 0, true, 0⟩ := by
    have h40 : fld va 40 12 = 0 := by simp only [fld]; omega
    have h28 : fld va 28 12 = 0 := by simp only [fld]; omega
    have h0 : va / 2 ^ 28 = 0 := by omega
    have e1 (o : Bool) : ofBytes ((List.range 8).map fun j => restoring.lpByte o (0x10000 + 8 * 0 + j)) = 0x20008 := by
      cases o <;> decide +kernel
    have e2 (o : Bool) : ofBytes ((List.range 8).map fun j => restoring.lpByte o (0x20000 + 8 * 0 + j)) = 0xE := by
      cases o <;> decide +kernel
    have r : fld (restoring.part 0).maproot.toNat 16 24 * 65536 = 0x10000 := by decide +kernel
    have s1 : entryStop (restoring.part 0) 0x20008 1 = none := by decide +kernel
    have s2 : entryStop (restoring.part 0) 0xE 2 = none := by decide +kernel
    have a1 : entryAddr 0x20008 = 0x20000 := by decide
    simp only [State.walk, h40, h28, h0, r, e1, s1, a1, e2, s2]
    rfl
  have hp : peerOf (0xFFF0000000080000 + BitVec.ofNat 64 n) = 4095 := by simp only [peerOf, hv]; omega
  have ha : vaOf (0xFFF0000000080000 + BitVec.ofNat 64 n) = 0x80000 + n := by simp only [vaOf, hv]; omega
  unfold rootAt
  rw [hp, ha, hw _ (by omega)]
  simp only [State.ownDevice, Leaf.pa_]
  norm_num
  omega

/-- So its words are those of memory. -/
theorem restoring_words (off n : Nat) (h : off + 8 * n ≤ 0x80000) :
    frameWords 0 0xFFF0000000080000 off n restoring = some ((List.range n).map fun i =>
      ofBytes ((((List.range (8 * n)).map fun j => restoring.rd (0x80000 + (off + j))).drop (8 * i)).take 8)) := by
  have hr : ((List.range (8 * n)).map fun i => rootAt 0 false (0xFFF0000000080000 + BitVec.ofNat 64 off + BitVec.ofNat 64 i) restoring) =
      (List.range (8 * n)).map fun i => RootAt.ok (0x80000 + (off + i)) := by
    apply List.map_congr_left
    intro i hi
    have := List.mem_range.mp hi
    rw [BitVec.add_assoc, ← BitVec.ofNat_add, restoring_at _ (by omega)]
  have hb (a : Nat) : restoring.lineBad a = false := rfl
  unfold frameWords rootWords
  rw [hr]
  simp [List.any_map, Function.comp_def, hb]

/-- What makes a shallow frame acceptable (R88). -/
theorem frameOk_of (pn : Fin 24) (f : Word) (s : State) (h r w : List Nat) (hh : frameWords pn f 0 8 s = some h)
    (hr : frameWords pn f 0x800 256 s = some r)
    (hc : ((groups 4 r).all regionOk && regionsApart ((groups 4 r).map regionOf)) = true) (hk : headerOk h = some false)
    (hw : frameWords pn f 0 0xE000 s = some w) : frameOk pn f s = some false := by
  unfold frameOk
  rw [hh, hr]
  dsimp only
  rw [if_pos hc, hk, Option.bind_some, if_neg Bool.false_ne_true, hw]
  rfl

theorem read_above (m : Memory) (a : Nat) (h : ∀ c ∈ m, c.1 < a) : m.read a = 0 := by
  induction m with
  | nil => rfl
  | cons c t ih =>
    have hc : c.1 < a := h c (by simp)
    simp only [Memory.read, if_neg (show ¬a = c.1 by omega), if_neg (show ¬a < c.1 by omega)]
    exact ih fun x hx => h x (by simp [hx])

/-- The words of its region descriptors are zero. -/
theorem restoring_regions : frameWords 0 0xFFF0000000080000 0x800 256 restoring = some (List.replicate 256 0) := by
  have hm : ∀ c ∈ restoring.mem, c.1 < 0x80008 := by decide +kernel
  have hz : ((List.range (8 * 256)).map fun j => restoring.rd (0x80000 + (0x800 + j))) = List.replicate 2048 0 := by
    refine List.eq_replicate_iff.mpr ⟨by rw [List.length_map, List.length_range], fun b hb => ?_⟩
    obtain ⟨j, -, rfl⟩ := List.mem_map.mp hb
    exact read_above _ _ fun c hc => Nat.lt_of_lt_of_le (hm c hc) (by omega)
  rw [restoring_words 0x800 256 (by decide), hz]
  refine congrArg some (List.eq_replicate_iff.mpr ⟨by rw [List.length_map, List.length_range], fun b hb => ?_⟩)
  obtain ⟨i, hi, rfl⟩ := List.mem_map.mp hb
  have := List.mem_range.mp hi
  rw [List.drop_replicate, List.take_replicate, show min 8 (2048 - 8 * i) = 8 by omega]
  decide

theorem restoring_ok : frameOk 0 0xFFF0000000080000 restoring = some false :=
  frameOk_of 0 _ _ _ _ _ (restoring_words 0 8 (by decide)) restoring_regions (by decide +kernel) (by decide +kernel)
    (restoring_words 0 0xE000 (by decide))

/-- A saved frame that a restore accepts, and one whose page is in STATE 2. -/
theorem witness_restore_goes :
    restoring.gang? saved.id = some saved ∧ gangFramesWait restoring saved = false ∧ gangFramesOk restoring saved = true ∧
      restoring.lpddr = [] ∧ (restoring.task? saved.part saved.task).map (fun t => t.gangs) = some [saved.id] ∧
      gangFramesWait { restoring with mem := [(0x10000, 8), (0x10002, 2), (0x20000, 0x16)] } saved = true := by
  refine ⟨by decide +kernel, by decide +kernel, ?_, rfl, by decide +kernel, by decide +kernel⟩
  have h (f : Word) (hf : frameOk 0 f restoring = some false) :
      gangFramesOk restoring { saved with members := [{ member with frame := some f }] } = true := by
    simp [gangFramesOk, saved, single, pair, member, hf]
  exact h _ restoring_ok

/-- Tokens of the mesh for the core in view. -/
def metered (s : State) : State :=
  (s.modCore fun c => { c with meshTok := some 65536 }).modPart 0 fun p => { p with plyTok := [(0, 65536)] }

/-- Fills and walks that go, and that wait for the plan; a fill from another ply may lose a beat. -/
theorem witness_fills :
    (let s := planning (metered filling)
     s.meshOpen s.key s.core.act.part 4096 = true ∧ fillOpen (vaOf 0xFFF0000000010000) 0x30000 s = true ∧
      fillLost (vaOf 0xFFF0000000010000) s = false ∧ fillOpen (vaOf 0xFFF0000000010000) 0x30000 (metered filling) = false ∧
      (planning { (metered filling) with lines := [(0x600, ⟨1, some 0, false, 0, false⟩)] }).lineBad 0x30000 = true) ∧
    (let s := planning (metered { filling with key := ⟨2, 0⟩ })
     (fillLines (vaOf 0xFFF0000000010000) 0).any (fun l => slicePly (s.home s.core.act.part l.1) != s.key.cl.val / 2) = true) ∧
    (let s := planning (metered (owned.modCore fun c => { c with walks := [(4, .pending)] }))
     s.meshOpen s.key s.core.act.part walkBytes = true ∧ s.planned [(plyOf s.key.cl.val).val, 12] s.core.act.part.val = true ∧
      owned.planned [(plyOf owned.key.cl.val).val, 12] 0 = false ∧ s.walk s.core.act.part (4 * 65536) = .leaf ⟨true, 0, 0, true, 0⟩ ∧
      s.walk s.core.act.part (4096 * 65536) = .fault 1 2 ∧
      ({ s with mem := tables.write 0x20000 0x16 } : State).walk s.core.act.part (4 * 65536) = .migrating) ∧
    owned.clusterPart owned.key.cl.val = some 0 ∧ live.clusterPart 0 = none := by
  refine ⟨by decide +kernel, by decide +kernel, by decide +kernel, by decide +kernel, by decide +kernel⟩

/-- A sample ring in the mapped page, with HEAD `h`. -/
def sampled (base : Word) (h : Nat) : State := inPart fun p => { p with smpctl := 0x20001, smpbase := base, smphead := h, smptail := h }

/-- A sample record that fits with no pad and with two words of it, whose words translate, do not, or meet a STATE 2 entry; a full ring. -/
theorem witness_samples :
    (∀ h ∈ [0, 510],
      let s := sampled 0xFFF0000000200000 h
      let p := s.part 0
      let pad := p.ringPad 4
      let slots := (if pad = 0 then [] else [0]) ++ (List.range 4).map fun i => pad + i
      let stored := (slots.filterMap fun i => s.gvaPaW 0 (p.ringGva i)).flatMap fun a => (List.range 8).map fun j => a + j
      sampleDue s s.key = true ∧ p.smpwait = [] ∧ pad = (if h = 0 then 0 else 2) ∧ pad + 4 ≤ 2 ^ p.smplog - (p.smphead - p.smptail) ∧
        (∀ i ∈ slots, s.gvaWaits 0 (p.ringGva i) = false ∧ (∀ a ∈ s.tableBytes 0 (vaOf (p.ringGva i)), a ∉ stored) ∧
          s.gvaPaW 0 (p.ringGva i) ≠ none) ∧ s.lpddr = [] ∧ stored.Nodup) ∧
    (let s := sampled 0xFFF0000010000000 0
     s.gvaWaits 0 ((s.part 0).ringGva 0) = false ∧ s.gvaPaW 0 ((s.part 0).ringGva 0) = none) ∧
    (let s : State := { sampled 0xFFF0000000200000 0 with mem := tables.write 0x20000 0x16 }
     s.gvaWaits 0 ((s.part 0).ringGva 0) = true) ∧
    (let s := (sampled 0xFFF0000000200000 510).modPart 0 fun p => { p with smptail := 0 }
     2 ^ (s.part 0).smplog - ((s.part 0).smphead - (s.part 0).smptail) < (s.part 0).ringPad 4 + 4) := by
  refine ⟨by decide +kernel, by decide +kernel, by decide +kernel, by decide +kernel⟩

/-- A copy that is judged: alone, with no credit ahead of its queue's, and with an empty box; its first unit. -/
theorem witness_copy_units :
    (creditAhead (copying 1 none) 0 = false ∧ 0 < theBox.total ∧ ((copying 1 none).core.copies.map fun x => x.id).Nodup ∧
      ({ (copying 1 none) with agenda := [.copyReadReturn ⟨0, 0⟩ 0] } : State).core.copies.length = 1 ∧
      creditAhead { (copying 1 none) with agenda := [.copyReadReturn ⟨0, 0⟩ 0] } 0 = true) ∧
    (let d := (256 * 2 ^ 32 + 128) :: (2 ^ 16 + 2 ^ 32 + 2 ^ 48) :: descriptor.drop 2
     (boxOf d spmRecord pageRecord).total = 0 ∧ boxValid .move d (boxOf d spmRecord pageRecord) = true) ∧
    (let s := copying 2 (some theBox)
     let d := s.drawn.modCore fun k => { k with lastQ := 0 }
     let w := theBox.work .move (s.core.indexEntry .move theBox 0) 0
     w.bytes ≤ 16 ∧ placeRead 1 w.src w.bytes d = (d, .val 0) ∧ placeDest w.dst w.bytes d = (d, .own 0x30000) ∧ d.engineWrites < 512) := by
  refine ⟨by decide +kernel, by decide +kernel, by decide +kernel, by decide +kernel, by rfl, by decide +kernel⟩

/-- Two cores of one partition with a chunk to ask for: the round robin of their meter names one of them. -/
theorem witness_round_robin :
    let ready (s : State) : State :=
      { (s.modPart 0 fun p => { p with meters := [(0, 1024)] }).modCtx fun c => { c with sys := { c.sys with pace := 1 } } with
        plies := s.plies.set 0 { Ply.reset with st := .p0 } }
    let s := ready (pulling 0)
    let both (last : List (Nat × Nat)) : State := { s.modPart 0 (fun p => { p with admitted := last }) with others := [(⟨0, 12⟩, s.core)] }
    roundRobin (s.part 0) (contenders s 0) = some s.key ∧ chunkReady s = true ∧
      roundRobin ((both []).part 0) (contenders (both []) 0) = some ⟨0, 0⟩ ∧
      roundRobin ((both [(0, 0)]).part 0) (contenders (both [(0, 0)]) 0) = some ⟨0, 12⟩ := by
  decide +kernel

/-- A chunk of a consumer in another ply, which the plan lets go and does not; a release message to a producer on another ply. -/
theorem witness_far_chunk :
    (let x : Chunk := { chunk 0 with key := ⟨2, 0⟩ }
     let s : State := { publishing (block 2 1 900) with chunks := [x] }
     x.asks = false ∧ x.hops = 0 ∧ (s.coreAt x.key).port.notice? x.idx = none ∧ s.portCore x.src = some s.key ∧
      (plyOf x.key.cl.val != plyOf s.key.cl.val) = true ∧
      (planning s).planned [(plyOf x.key.cl.val).val, (plyOf s.key.cl.val).val] x.src.part.val = true ∧
      s.planned [(plyOf x.key.cl.val).val, (plyOf s.key.cl.val).val] x.src.part.val = false) ∧
    (let s := { publishing (block 2 1 900) with chunks := [chunk 0] }
     (s.coreAt (chunk 0).key).port.notice? (chunk 0).idx = none ∧ (chunk 0).block.toNat = 0x105 ∧
      ((0x105 : Nat), claimOf false 6, 0) ∉ s.core.port.waits ∧
      ({ block 2 1 900 with claims := [claimOf false 6] } : Block).claims = [claimOf false 6]) ∧
    (let s := pulling 1
     s.farPort producer = false ∧ notice.peer = 4095) ∧
    (let s : State := { pulling 1 with key := ⟨2, 0⟩, others := [(⟨0, 0⟩, consumer.core)], gangs := consumer.gangs, parts := consumer.parts }
     s.farPort producer = true ∧ (planning s).planned [(plyOf s.key.cl.val).val] 0 = true) := by
  refine ⟨by decide +kernel, by decide +kernel, by decide +kernel, by decide +kernel⟩

/-- A beat in transit that has its intermediate still to reach; a group for another device on such a path. -/
theorem witness_transit :
    let up (s : State) : State := { s with link := { s.link with ports := (s.link.ports.set 0 8).set 1 8, routes := [(5, 0x8000000000000000), (6, 0x8100000000000000)] } }
    let s := up joined
    s.nextStop 5 none = 5 ∧ s.nextStop 5 (some 6) = 6 ∧ s.nextStop 5 (some 0) = 5 ∧ s.transitPort 5 = some 0 ∧ s.transitPort 6 = some 1 ∧
      s.pathUp 5 false = true ∧ s.routeWaits 5 = false ∧ joined.pathUp 5 false = false ∧
      (let g : Group := ⟨3, 9, 0x0060000000030080, true, 36, false, [(⟨1, 1, 7, some 6⟩, 5)]⟩
       s.ownDevice (peerOf g.gva) = false ∧ s.transitPort (s.nextStop (peerOf g.gva) (g.members.head?.bind fun m => m.1.via)) = some 1 ∧
        joined.transitPort (joined.nextStop (peerOf g.gva) (g.members.head?.bind fun m => m.1.via)) = none) := by
  decide +kernel

/-- An overdue block, and a notice of another device whose stand tenant no partition serves. -/
theorem witness_overdue_late :
    (let s := publishing (block 3 1 90)
     s.core.port.block? 0x105 = some (block 3 1 90) ∧ (block 3 1 90).due ≤ s.time ∧ s.core.act.ended = false) ∧
    ({ joined with link := { joined.link with routePend := [(5, 0)] } } : State).routeWaits 5 = true := by
  decide +kernel

end Sys2Proof.Tests
end

section
/-! SUPPORT. Scalar sources, guards and masks as slot instructions read them (R37, R38, R40), and that every operation which has a
guard runs under it (R37). -/

namespace Sys2Proof.Machine

/-! ### Operands as they are read -/

/-- R11, R40: an s register as a source; s0 reads as zero. -/
theorem State.src_s (s : State) (i : Fin 64) : s.src (.s i) = if i = 0 then 0 else s.core.act.view.s[i] := rfl

/-- R40: a latch as a source gives its low 64 bits. -/
theorem State.src_l (s : State) (n : Fin 12) : s.src (.l n) = (s.core.act.view.lat[n]).setWidth 64 := rfl

/-- R40: an immediate source keeps its signed value. -/
theorem State.src_imm_toInt (s : State) (v : BitVec 4) : (s.src (.imm v)).toInt = v.toInt :=
  BitVec.toInt_signExtend_of_le (by decide)

/-- R11, R37: the guard outside S3; p0 reads as true. -/
theorem State.guard_eq (s : State) (g : Guard) :
    s.guard g = ((if g.idx = 0 then true else s.core.act.view.p.getLsbD g.idx.val) ^^ g.neg) := rfl

/-- R11: a mask register as it is read; k0 reads as all ones. -/
theorem RegFile.rk_getLsbD (r : RegFile) (i : Fin 8) (j : Nat) (hj : j < 64) :
    (r.rk i).getLsbD j = if i = 0 then true else (r.k[i]).getLsbD j := by
  by_cases h : i = 0
  · rw [RegFile.rk, if_pos h, if_pos h, BitVec.getLsbD_allOnes, decide_eq_true hj]
  · rw [RegFile.rk, if_neg h, if_neg h]

/-- R38: the mask of S3 is the mask register or its complement. -/
theorem State.maskOf_getLsbD (s : State) (g : Guard) (j : Nat) (hj : j < 64) :
    (s.maskOf g).getLsbD j = ((if g.idx = 0 then true else (s.core.act.view.k[g.idx]).getLsbD j) ^^ g.neg) := by
  rw [← RegFile.rk_getLsbD _ _ _ hj]
  cases h : g.neg
  · simp [State.maskOf, h]
  · simp [State.maskOf, h, hj]

/-! ### Guards -/

/-- Every operation that has a guard runs under it, in its own slot (R37). -/
theorem exec_eq_slotOp (i : Instr) (sl : Fin 7) (g : Guard) (hsl : i.slot? = some sl) (hg : guardOf i = some g) :
    ∃ f, ∀ s, exec i s = slotOp sl g f s := by
  cases i with
  | add sc r | sub sc r | and sc r | or sc r | xor sc r | andn sc r | shl sc r | shr sc r | sar sc r | rot sc r
  | min sc r | max sc r | minu sc r | maxu sc r | bfx sc r | bfi sc r | addi sc r | cmp sc r | sel sc r | clz sc r
  | popc sc r | movi sc r | movh sc r | pand sc r | por sc r | pxor sc r | pnot sc r =>
    obtain rfl := Option.some.inj hg
    obtain rfl := Option.some.inj hsl
    cases sc with
    | s0 => exact ⟨_, fun _ => rfl⟩
    | s1 => exact ⟨_, fun _ => rfl⟩
  | mul r | mulh r | div r | divu r | rem r | remu r | mada r | srd r | swr r
  | lds r | ld r | sts r | st r | ldv r | stv r | lda r | stl r | atom r | cas r | phase r | fence r
  | tagl r | tagi r | tagx r | rgwb r
  | mcfg r | mld r | mst r | mstPs r | mz r | mzPs r | mta r | mtg r | msca r | mwt r | mcnt r
  | copy r | copyg r | copys r | copyr r | fbind r | fdrop r | hset r | hwait r | hrel r | qfence r | tenq r | tsig r
  | bar r | bara r | barw r | pause r | role r | xph r | xsnd r | xsel r | cst r | cld r | cxch r | pub r | land r
  | decl r | recl r | nstat r | cnt r
  | br r | brp r | call r | ret r | loop r | lexit r | lix r | endk r | trap r | eret r =>
    obtain rfl := Option.some.inj hg
    obtain rfl := Option.some.inj hsl
    exact ⟨_, fun _ => rfl⟩
  | _ => exact (Option.some_ne_none g hg.symm).elim

/-- With a false guard an instruction commits its slot and does nothing (R37). -/
theorem completes_of_guard_false (i : Instr) (s : State) (sl : Fin 7) (g : Guard) (hsl : i.slot? = some sl)
    (hg : guardOf i = some g) (h : s.guard g = false) : Completes i s sl s := by
  obtain ⟨f, hf⟩ := exec_eq_slotOp i sl g hsl hg
  exact completes_of i s s sl ((hf s).trans (slotOp_false sl g f s h)) (kept_self s)

/-- NOP commits its slot and does nothing, whatever its guard (R54). -/
theorem completes_nop (sl : Fin 7) (g : Guard) (s : State) : Completes (.nop sl g) s sl s :=
  completes_of _ s s sl rfl (kept_self s)

/-- Settles O11: the readings of the operands one by one, and the guard through the common form of the operations that have one. -/
theorem operandsAndGuards : Obligations.OperandsAndGuards :=
  ⟨fun s => ⟨s.src_s, s.src_l, s.src_imm_toInt, s.guard_eq, s.maskOf_getLsbD⟩, completes_of_guard_false, completes_nop⟩

end Sys2Proof.Machine
end

section
/-! SUPPORT. Synchronous traps as the statements have them: what the snapshot of a stop leaves as it was, delivery to the supervisor and to
the local handler (R89, R90, R93, R95). -/

namespace Sys2Proof.Machine

/-! ### The snapshot of a stop -/

/-- Taking windows changes the feeds and the owned windows only. -/
theorem Core.takeWindow_eq (c : Core) (f : Fin 8) :
    ∃ fd wi, c.takeWindow f = { c with feeds := fd, act := { c.act with wins := wi } } := by
  unfold Core.takeWindow
  split
  · exact ⟨c.feeds, c.act.wins, rfl⟩
  · split
    · exact ⟨c.feeds, c.act.wins, rfl⟩
    · split
      · exact ⟨c.feeds, c.act.wins, rfl⟩
      · exact ⟨_, _, rfl⟩

/-- Taking several windows likewise. -/
theorem Core.takeWindows_eq (fs : List (Fin 8)) (c : Core) :
    ∃ fd wi, fs.foldl Core.takeWindow c = { c with feeds := fd, act := { c.act with wins := wi } } := by
  induction fs generalizing c with
  | nil => exact ⟨c.feeds, c.act.wins, rfl⟩
  | cons f fs ih =>
    obtain ⟨fd, wi, h⟩ := c.takeWindow_eq f
    obtain ⟨fd', wi', h'⟩ := ih (c.takeWindow f)
    exact ⟨fd', wi', h'.trans (by rw [h])⟩

/-- A snapshot changes the feeds, the owned windows and the snapshot only; slots go on reading what they read (R90, R164). -/
theorem Core.snapshot_eq (c : Core) : ∃ fd wi sn,
    c.snapshot = { c with feeds := fd, act := { c.act with wins := wi, snap := sn } } ∧ sn.getD c.act.regs = c.act.view := by
  unfold Core.snapshot
  cases c.act.bun with
  | none => exact ⟨c.feeds, c.act.wins, c.act.snap, rfl, rfl⟩
  | some b =>
    obtain ⟨fd, wi, h⟩ := Core.takeWindows_eq (b.slots.flatMap c.feedsRead) c
    exact ⟨fd, wi, some c.act.view, by simp only [h], rfl⟩

/-! ### Delivery -/

/-- The causes that may be delivered locally, as a list (R89). -/
theorem localCause_iff (code : Nat) : localCause code = true ↔ code ∈ localCodes := by
  simp [localCause, localCodes]
  omega

/-- Delivery to the supervisor puts the trap's record in line (R95, R270). -/
theorem superTrap_fqwait (t : Trap) (s : State) :
    ((superTrap t s).part s.core.act.part).fqwait = (s.part s.core.act.part).fqwait ++ [trapRecord s t] :=
  congrArg Part.fqwait (State.modPart_part s s.core.act.part fun q => { q with fqwait := q.fqwait ++ [trapRecord s t] })

/-- Delivery to the supervisor, with the snapshot taken, as the statements have it (R95). -/
theorem supervisorEntry_superTrap (t : Trap) (s : State) :
    SupervisorEntry s (keep s (superTrap t (s.modCore Core.snapshot))) t.slot t.code t.einfo := by
  obtain ⟨fd, wi, sn, h, -⟩ := s.core.snapshot_eq
  rw [show s.modCore Core.snapshot = { s with core := s.core.snapshot } from rfl, h]
  exact { frozen := rfl, pos := rfl, bun := rfl, regs := rfl, sys := rfl, flights := rfl, bytes := fun _ => rfl,
          scratch := fun _ => rfl, record := ⟨_, superTrap_fqwait t _, rfl, rfl, rfl, rfl, rfl, rfl⟩ }

/-- ESTAT as a local delivery leaves it has IN set (R93). -/
theorem estatEnter_in (c : Ctx) : (estatEnter c).getLsbD 0 = true := by
  simp [estatEnter, BitVec.getElem_eq_testBit_toNat, Nat.add_mod]

/-- A field of a word is the number of the bits that it names. -/
theorem fld_toNat (a : Word) (lo n : Nat) : fld a.toNat lo n = (a.extractLsb' lo n).toNat := by
  rw [fld, BitVec.extractLsb'_toNat, Nat.shiftRight_eq_div_pow]

/-- ESTAT as a local delivery leaves it has the depth of the loop stack in LDEP (R93). -/
theorem estatEnter_ldep (c : Ctx) : fld (estatEnter c).toNat 1 3 = c.loops.length % 8 := by
  have rest : (c.sys.estat &&& 0x10).extractLsb' 1 3 = 0 := by
    rw [BitVec.extractLsb'_and, show (0x10 : Word).extractLsb' 1 3 = 0 from rfl]
    exact BitVec.and_zero
  rw [fld_toNat, estatEnter, BitVec.extractLsb'_or, rest, BitVec.ofNat_eq_ofNat, BitVec.zero_or, ← fld_toNat]
  simp only [fld, BitVec.toNat_ofNat]
  omega

/-- EDONE as a local delivery leaves it holds DONE and MASK of the stopped bundle (R93). -/
theorem localTrap_edone (t : Trap) (isAsync : Bool) (s : State) (b : Bundle) (hb : s.core.act.bun = some b) :
    (localTrap t isAsync s).core.act.sys.edone = BitVec.ofNat 64 (b.done.toNat + b.mask.toNat * 256) := by
  simp only [localTrap, hb]
  rfl

/-- Delivery to the local handler, with the snapshot taken, as the statements have it (R93). -/
theorem localEntry_localTrap (t : Trap) (s : State) :
    LocalEntry s (keep s (localTrap t false (s.modCore Core.snapshot))) t.slot t.code t.einfo false := by
  obtain ⟨fd, wi, sn, h, hv⟩ := s.core.snapshot_eq
  rw [show s.modCore Core.snapshot = { s with core := s.core.snapshot } from rfl, h]
  exact { running := rfl, inHandler := estatEnter_in _, ldep := estatEnter_ldep _, loops := rfl, epos := rfl,
          edone := fun b hb => localTrap_edone t false _ b hb, ecause := rfl, einfo := rfl, regs := ⟨rfl, rfl, rfl, rfl⟩,
          latches := rfl, withheld := rfl, saved := ⟨_, rfl, rfl, congrArg some hv, rfl⟩, pos := rfl, vcyc := rfl,
          bytes := fun _ => rfl, scratch := fun _ => rfl }

/-- A synchronous trap is delivered where R89, R93 and R95 say. -/
theorem trapped_takeTrap (t : Trap) (s : State) : Trapped s (keep s (takeTrap t s)) t.slot t.code t.einfo := by
  unfold Trapped takeTrap
  simp only [Bool.and_eq_true, localCause_iff]
  split
  · split
    · exact supervisorEntry_superTrap ⟨0x1F, t.slot, BitVec.ofNat 64 t.code, t.gva, 0⟩ s
    · exact localEntry_localTrap t s
  · exact supervisorEntry_superTrap t s

/-- A slot instruction whose operation takes a trap with a code and EINFO ends in that trap. -/
theorem traps_of (i : Instr) (s : State) (sl code : Nat) (einfo : Word) (h : exec i s = .next (keep s (trapAt sl code einfo s))) :
    Traps i s sl code einfo :=
  ⟨_, h, trapped_takeTrap _ s⟩

end Sys2Proof.Machine
end

section
/-! SUPPORT. The scalar and predicate instructions (R116-R124): what a slot gives whose operation is a function of the state at issue, and
what those functions are. -/

namespace Sys2Proof.Machine

/-! ### Slots with one result -/

/-- A slot instruction whose guard is true does what its operation does (R37). -/
theorem exec_of_slotOp {i : Instr} {s : State} {sl : Nat} {g : Guard} {f : State → State} (hi : exec i s = slotOp sl g f s)
    (hg : s.guard g = true) : exec i s = .next (keep s (f s)) :=
  hi.trans (slotOp_true sl g f s hg)

/-- A scalar instruction under a true guard completes with its function of the state at issue (R116). -/
theorem gives_of_slotOp {i : Instr} {s : State} {sl lat : Nat} {g : Guard} {wb : Bool} {d : Fin 64} (f : State → Word)
    (hi : exec i s = slotOp sl g (fun s => landS sl lat wb d (f s) s) s) (hg : s.guard g = true) :
    Gives i s sl lat wb d (f s) :=
  gives_of i s sl lat wb d (f s) (exec_of_slotOp hi hg)

/-- Format REG: the function is one of the two sources. -/
theorem gives_of_alu {i : Instr} {s : State} {sl lat : Nat} {r : RegF} (f : Word → Word → Word)
    (hi : exec i s = alu sl lat r f s) (hg : s.guard r.g = true) : Gives i s sl lat r.wb r.d (f (s.src r.a) (s.src r.b)) :=
  gives_of_slotOp (fun s => f (s.src r.a) (s.src r.b)) hi hg

/-! ### Functions of two sources -/

/-- SHL with the amount inside its range first, as R118 has it. -/
theorem shlW_eq (a b : Word) : shlW a b = if b.toNat < 64 then a <<< b.toNat else 0 := by
  simp only [shlW, ← Nat.not_lt, ite_not]

/-- SHR with the amount inside its range first, as R118 has it. -/
theorem shrW_eq (a b : Word) : shrW a b = if b.toNat < 64 then a >>> b.toNat else 0 := by
  simp only [shrW, ← Nat.not_lt, ite_not]

/-- SAR with the amount inside its range first, as R118 has it; past it only the sign is left. -/
theorem sarW_eq (a b : Word) : sarW a b =
    if b.toNat < 64 then a.sshiftRight b.toNat else if a.getLsbD 63 then BitVec.allOnes 64 else 0 := by
  simp only [sarW, ← Nat.not_lt, ite_not, BitVec.msb_eq_getLsbD_last]

/-- ROT is two shifts that meet (R118). -/
theorem rotW_eq (a b : Word) : rotW a b = a <<< (b.toNat % 64) ||| a >>> (64 - b.toNat % 64) := by
  rw [rotW, BitVec.rotateLeft_def, Nat.mod_mod]

/-- The choice by `≤` is the opposite choice by `<`. -/
theorem ite_le_eq_ite_lt {α β : Type} [LinearOrder α] (x y : α) (u v : β) [Decidable (x ≤ y)] [Decidable (y < x)] :
    (if x ≤ y then u else v) = if y < x then v else u := by
  simp only [← not_lt, ite_not]

/-- Settles O13: each instruction gives its function of the two sources, and the functions are those of R117 and R118. -/
theorem scalarTwoSourceResults : Obligations.ScalarTwoSourceResults := by
  intro s sl r hg a b n
  have give {i sl lat} (f : Word → Word → Word) (hi : exec i s = alu sl lat r f s) : Gives i s sl lat r.wb r.d (f a b) :=
    gives_of_alu f hi hg
  refine ⟨give (· + ·) rfl, give (· - ·) rfl, give (· * ·) rfl, give mulhW rfl, give (· &&& ·) rfl, give (· ||| ·) rfl,
    give (· ^^^ ·) rfl, give (fun a b => a &&& ~~~b) rfl, shlW_eq a b ▸ give shlW rfl, shrW_eq a b ▸ give shrW rfl,
    sarW_eq a b ▸ give sarW rfl, rotW_eq a b ▸ give rotW rfl, ?_, ?_, ?_, ?_,
    gives_of_slotOp (fun s => s.sreg r.d + s.src r.a * s.src r.b) rfl hg⟩
  · rw [← ite_le_eq_ite_lt]; exact give (fun a b => if a.toInt ≤ b.toInt then a else b) rfl
  · rw [← ite_le_eq_ite_lt]; exact give (fun a b => if a.toInt ≤ b.toInt then b else a) rfl
  · rw [← ite_le_eq_ite_lt]; exact give (fun a b => if a.toNat ≤ b.toNat then a else b) rfl
  · rw [← ite_le_eq_ite_lt]; exact give (fun a b => if a.toNat ≤ b.toNat then b else a) rfl

/-! ### Division -/

/-- The least signed dividend, as a word (R119). -/
theorem toInt_min_iff (a : Word) : a.toInt = -2 ^ 63 ↔ a = 0x8000000000000000 :=
  BitVec.toInt_inj (y := 0x8000000000000000)

/-- The divisor −1, as a word (R119). -/
theorem toInt_neg_one_iff (b : Word) : b.toInt = -1 ↔ b = BitVec.allOnes 64 :=
  BitVec.toInt_inj (y := BitVec.allOnes 64)

/-- Apart from its corners DIV is the quotient that truncates toward zero (R119). -/
theorem divW_toInt (a b : Word) (hb : b ≠ 0) (ho : ¬(a.toInt = -2 ^ 63 ∧ b.toInt = -1)) :
    (divW a b).toInt = a.toInt.tdiv b.toInt := by
  rw [toInt_min_iff, toInt_neg_one_iff] at ho
  have hs : (a.sdiv b).toInt = a.toInt.tdiv b.toInt := BitVec.toInt_sdiv_of_ne_or_ne a b (by
    rw [← BitVec.neg_one_eq_allOnes] at ho
    exact not_and_or.1 ho)
  rw [divW, if_neg hb, if_neg ho, ← hs, BitVec.ofInt_toInt]

/-- Apart from its corners REM is the remainder of that quotient (R119). -/
theorem remW_toInt (a b : Word) (hb : b ≠ 0) (ho : ¬(a.toInt = -2 ^ 63 ∧ b.toInt = -1)) :
    (remW a b).toInt = a.toInt.tmod b.toInt := by
  rw [toInt_min_iff, toInt_neg_one_iff] at ho
  rw [remW, if_neg hb, if_neg ho, ← Int.tmod_def, ← BitVec.toInt_srem, BitVec.ofInt_toInt]

/-- The one signed overflow gives the dividend (R119). -/
theorem divW_overflow (a b : Word) (ha : a.toInt = -2 ^ 63) (hb : b.toInt = -1) : divW a b = a := by
  rw [(toInt_min_iff a).1 ha, (toInt_neg_one_iff b).1 hb]
  rfl

/-- The one signed overflow leaves no remainder (R119). -/
theorem remW_overflow (a b : Word) (ha : a.toInt = -2 ^ 63) (hb : b.toInt = -1) : remW a b = 0 := by
  rw [(toInt_min_iff a).1 ha, (toInt_neg_one_iff b).1 hb]
  rfl

/-- DIVU is the quotient of the numbers (R119). -/
theorem divuW_toNat (a b : Word) (hb : b ≠ 0) : (divuW a b).toNat = a.toNat / b.toNat := by
  rw [divuW, if_neg hb, BitVec.toNat_ofNat, Nat.mod_eq_of_lt ((Nat.div_le_self _ _).trans_lt a.isLt)]

/-- REMU is the remainder of the numbers (R119). -/
theorem remuW_toNat (a b : Word) (hb : b ≠ 0) : (remuW a b).toNat = a.toNat % b.toNat := by
  rw [remuW, if_neg hb, ← Nat.mod_eq_sub, BitVec.toNat_ofNat, Nat.mod_eq_of_lt ((Nat.mod_le _ _).trans_lt a.isLt)]

/-- Settles O14: the corners by the first branches of the four functions, the rest by what the quotient and the remainder are as
numbers. -/
theorem divisionResults : Obligations.DivisionResults := by
  intro s r hg a b
  have div : Gives (.div r) s 0 12 r.wb r.d (divW a b) := gives_of_alu divW rfl hg
  have rem : Gives (.rem r) s 0 12 r.wb r.d (remW a b) := gives_of_alu remW rfl hg
  have divu : Gives (.divu r) s 0 12 r.wb r.d (divuW a b) := gives_of_alu divuW rfl hg
  have remu : Gives (.remu r) s 0 12 r.wb r.d (remuW a b) := gives_of_alu remuW rfl hg
  refine ⟨fun hb => ⟨?_, ?_, ?_, ?_⟩, fun ha hb => ⟨?_, ?_⟩,
    fun hb ho => ⟨_, _, div, rem, divW_toInt a b hb ho, remW_toInt a b hb ho⟩, fun hb => ⟨_, _, divu, remu, ?_, ?_⟩⟩
  · rwa [divW, if_pos hb] at div
  · rwa [remW, if_pos hb] at rem
  · rwa [divuW, if_pos hb] at divu
  · rwa [remuW, if_pos hb] at remu
  · rwa [divW_overflow a b ha hb] at div
  · rwa [remW_overflow a b ha hb] at rem
  · rw [divuW_toNat a b hb, remuW_toNat a b hb, Nat.div_add_mod]
  · rw [remuW_toNat a b hb]
    exact Nat.mod_lt _ (Nat.pos_of_ne_zero fun h => hb (BitVec.eq_of_toNat_eq h))

/-! ### Immediates, counts, comparisons, selection, predicates -/

/-- A predicate result is held zero-extended in the latches (R121, R124). -/
theorem latchOf_boolW (x : Bool) : latchOf (boolW x) = BitVec.ofNat 2048 (b2n x) := by
  cases x <;> simp [latchOf, boolW, b2n]

/-- An instruction with a predicate destination, under a true guard, completes with its truth value of the state at issue (R121, R124). -/
theorem givesP_of_slotOp {i : Instr} {s : State} {sl : Nat} {g : Guard} {d : Fin 8} (f : State → Bool)
    (hi : exec i s = slotOp sl g (fun s => landP sl d (f s) s) s) (hg : s.guard g = true) : GivesP i s sl d (f s) := by
  have h := exec_of_slotOp hi hg
  rw [landP, latchOf_boolW] at h
  exact completes_of i s _ sl h (kept_flying s s _ _ _ _ _ (kept_self s))

/-- A guard that is not negated is its predicate (R37). -/
theorem State.guard_positive (s : State) (i : Fin 8) : s.guard ⟨false, i⟩ = s.core.act.view.rp i := Bool.xor_false _

/-- MOVH joins 14 bits to the shifted register: the parts do not overlap (R120). -/
theorem shl_or_imm (d : Word) (imm : BitVec 14) :
    (d <<< 14 ||| imm.setWidth 64) = BitVec.ofNat 64 (d.toNat * 2 ^ 14 + imm.toNat) := by
  apply BitVec.eq_of_toNat_eq
  rw [BitVec.toNat_or, BitVec.toNat_shiftLeft, BitVec.toNat_setWidth, ← Nat.or_mod_two_pow, ← Nat.shiftLeft_add_eq_or_of_lt imm.isLt,
    Nat.shiftLeft_eq, BitVec.toNat_ofNat]

/-- Zeros above the highest 1 of a word, counted from bit 63 (R117). -/
def leadingZeros (a : Word) : Nat := ((List.range 64).takeWhile fun i => !a.getLsbD (63 - i)).length

/-- CLZ counts the leading zeros (R117). -/
theorem clzW_eq (a : Word) : clzW a = BitVec.ofNat 64 (leadingZeros a) := rfl

/-- The count of leading zeros is the distance of the first 1 from bit 63. -/
theorem leadingZeros_eq_findIdx (a : Word) : leadingZeros a = (List.range 64).findIdx fun i => a.getLsbD (63 - i) := by
  rw [leadingZeros, List.takeWhile_eq_take_findIdx_not, List.length_take, Nat.min_eq_left List.findIdx_le_length]
  simp

/-- A word has at most 64 leading zeros. -/
theorem leadingZeros_le (a : Word) : leadingZeros a ≤ 64 := by
  rw [leadingZeros_eq_findIdx]; exact List.findIdx_le_length

/-- Above the count every bit is 0. -/
theorem getLsbD_of_lt_leadingZeros (a : Word) (i : Nat) (h : i < leadingZeros a) : a.getLsbD (63 - i) = false := by
  rw [leadingZeros_eq_findIdx] at h
  simpa using List.not_of_lt_findIdx h

/-- The bit at the count is 1. -/
theorem getLsbD_leadingZeros (a : Word) (h : leadingZeros a < 64) : a.getLsbD (63 - leadingZeros a) = true := by
  rw [leadingZeros_eq_findIdx] at h ⊢
  have : (List.range 64).findIdx (fun i => a.getLsbD (63 - i)) < (List.range 64).length := by rwa [List.length_range]
  simpa using List.findIdx_getElem (w := this)

/-- Settles O15: each instruction gives its function of the state at issue; CLZ by the first 1, MOVH by the parts that do not overlap,
CMP condition by condition. -/
theorem scalarOtherResults : Obligations.ScalarOtherResults := by
  refine ⟨fun s sl => ⟨fun r hg => ?_, fun r hg => ⟨?_, ?_⟩, fun r hg => ?_, fun r hg => ?_, fun r hg => ?_, fun r hg => ?_⟩,
    fun s sl => ⟨fun r hg => ?_, fun r hg => ?_⟩⟩
  · exact gives_of_slotOp (fun s => s.src r.a + r.imm.signExtend 64) rfl hg
  · exact gives_of_slotOp (fun _ => r.imm.signExtend 64) rfl hg
  · rw [← shl_or_imm]
    exact gives_of_slotOp (fun s => s.sreg r.d <<< 14 ||| r.imm.setWidth 64) rfl hg
  · refine ⟨leadingZeros (s.src r.a), leadingZeros_le _, getLsbD_of_lt_leadingZeros _, getLsbD_leadingZeros _, ?_⟩
    rw [← clzW_eq]
    exact gives_of_slotOp (fun s => clzW (s.src r.a)) rfl hg
  · rw [List.countP_eq_length_filter]
    exact gives_of_slotOp (fun s => popcW (s.src r.a)) rfl hg
  · rw [s.guard_positive]
    exact gives_of_slotOp (fun s => if s.core.act.view.rp r.ps then s.sreg r.a else s.sreg r.b) rfl hg
  · have h := givesP_of_slotOp (i := .cmp sl r) (fun s => cmpHolds r.cond (s.src r.a) (s.src r.b)) rfl hg
    dsimp only at h ⊢
    cases hc : r.cond <;> rw [hc] at h <;> exact h
  · simp only [s.guard_positive]
    exact ⟨givesP_of_slotOp (fun s => s.core.act.view.rp r.pa && s.core.act.view.rp r.pb) rfl hg,
      givesP_of_slotOp (fun s => s.core.act.view.rp r.pa || s.core.act.view.rp r.pb) rfl hg,
      givesP_of_slotOp (fun s => s.core.act.view.rp r.pa ^^ s.core.act.view.rp r.pb) rfl hg⟩
  · rw [s.guard_positive]
    exact givesP_of_slotOp (fun s => !s.core.act.view.rp r.pa) rfl hg

/-! ### Bit fields -/

/-- LO is the low six bits (R122). -/
theorem bfLo_eq (c : Word) : bfLo c = c.toNat % 64 :=
  congrArg (· % 64) (Nat.div_one c.toNat)

/-- The limits of R122. -/
theorem bfBad_iff (c : Word) : bfBad c = true ↔ bfW c = 0 ∨ 64 < bfW c ∨ 64 < bfLo c + bfW c := by
  simp [bfBad, or_assoc]

/-- The two readings of a word as two's complement agree (R2). -/
theorem sInt_eq_toInt {n : Nat} (x : BitVec n) (h : 0 < n) : sInt n x.toNat = x.toInt := by
  obtain ⟨m, rfl⟩ := Nat.exists_eq_add_of_lt h
  have hx : (x.toNat : Int) % 2 ^ (0 + m + 1) = x.toNat := by exact_mod_cast Nat.mod_eq_of_lt x.isLt
  rw [sInt, Nat.mod_eq_of_lt x.isLt, hx, BitVec.toInt_eq_toNat_cond, Nat.pow_succ', Nat.add_sub_cancel]
  simp only [Nat.mul_lt_mul_left Nat.two_pos, Nat.cast_mul, Nat.cast_pow, Nat.cast_ofNat, Int.pow_succ']

/-- BFX extends the field that it names with its sign or with zeros (R122). -/
theorem bfxW_eq (a c : Word) (h : 0 < bfW c) : bfxW a c =
    if c.getLsbD 16 then (a.extractLsb' (bfLo c) (bfW c)).signExtend 64 else (a.extractLsb' (bfLo c) (bfW c)).setWidth 64 := by
  simp only [bfxW, fld_toNat, sInt_eq_toInt _ h, BitVec.ofNat_toNat]
  rfl

/-- The bits of BFX (R122). -/
theorem bfxW_getLsbD (a c : Word) (j : Nat) (hj : j < 64) (hb : bfBad c = false) :
    (bfxW a c).getLsbD j =
      if j < bfW c then a.getLsbD (bfLo c + j) else c.getLsbD 16 && a.getLsbD (bfLo c + bfW c - 1) := by
  have hw : 0 < bfW c := Nat.pos_of_ne_zero fun h => by simp [(bfBad_iff c).2 (.inl h)] at hb
  rw [bfxW_eq a c hw]
  have sign : (a.extractLsb' (bfLo c) (bfW c)).msb = a.getLsbD (bfLo c + bfW c - 1) := by
    rw [BitVec.msb_eq_getLsbD_last, BitVec.getLsbD_extractLsb', Nat.add_sub_assoc hw]
    simp [hw]
  cases hs : c.getLsbD 16 with
  | true =>
    rw [if_pos rfl, BitVec.getLsbD_signExtend, sign]
    by_cases h : j < bfW c <;> simp [hj, h]
  | false => by_cases h : j < bfW c <;> simp [hj, h]

/-- The mask of BFI holds the W bits from bit LO (R122). -/
theorem bfiMask_getLsbD (lo w j : Nat) (hj : j < 64) :
    (BitVec.ofNat 64 ((2 ^ w - 1) * 2 ^ lo)).getLsbD j = decide (lo ≤ j ∧ j < lo + w) := by
  rw [BitVec.getLsbD_ofNat, Nat.testBit_mul_two_pow, Nat.testBit_two_pow_sub_one, decide_eq_true hj, Bool.true_and,
    ← Bool.decide_and, decide_eq_decide]
  omega

/-- The bits of BFI (R122). -/
theorem bfiW_getLsbD (d a c : Word) (j : Nat) (hj : j < 64) :
    (bfiW d a c).getLsbD j = if bfLo c ≤ j ∧ j < bfLo c + bfW c then a.getLsbD (j - bfLo c) else d.getLsbD j := by
  simp only [bfiW, BitVec.getLsbD_or, BitVec.getLsbD_and, BitVec.getLsbD_not, bfiMask_getLsbD _ _ j hj, BitVec.getLsbD_shiftLeft]
  by_cases h : bfLo c ≤ j ∧ j < bfLo c + bfW c <;> simp [h, hj]

/-- BFX and BFI under a true guard: the operand range trap outside the limits, and else a result in one cycle (R122). -/
theorem bitField_of_slotOp {i : Instr} {s : State} {sl : Nat} {r : RegF} (f : State → Word)
    (hi : exec i s = slotOp sl r.g (fun s =>
      if bfBad (s.src r.b) then trapAt sl 9 (s.src r.b) s else landS sl 1 r.wb r.d (f s) s) s)
    (hg : s.guard r.g = true) :
    (bfBad (s.src r.b) = true → Traps i s sl 9 (s.src r.b)) ∧ (bfBad (s.src r.b) = false → Gives i s sl 1 r.wb r.d (f s)) := by
  have h := exec_of_slotOp hi hg
  constructor
  · intro hc
    rw [if_pos hc] at h
    exact traps_of i s sl 9 _ h
  · intro hc
    rw [if_neg (Bool.eq_false_iff.1 hc)] at h
    exact gives_of i s sl 1 r.wb r.d _ h

/-- Settles O16: outside the limits both instructions trap, and inside them the bits of their results are those of R122. -/
theorem bitFieldInstructions : Obligations.BitFieldInstructions := by
  intro s sl r hg a c lo w
  have hlo : bfLo c = lo := bfLo_eq c
  have hw : bfW c = w := rfl
  obtain ⟨bfxTraps, bfxGives⟩ := bitField_of_slotOp (i := .bfx sl r) (fun s => bfxW (s.src r.a) (s.src r.b)) rfl hg
  obtain ⟨bfiTraps, bfiGives⟩ := bitField_of_slotOp (i := .bfi sl r) (fun s => bfiW (s.sreg r.d) (s.src r.a) (s.src r.b)) rfl hg
  rw [← hlo, ← hw]
  simp only [← bfBad_iff]
  split
  case isTrue h => exact ⟨bfxTraps h, bfiTraps h⟩
  case isFalse h =>
    have hc : bfBad c = false := Bool.eq_false_iff.2 h
    exact ⟨⟨_, bfxGives hc, fun j hj => bfxW_getLsbD a c j hj hc⟩, ⟨_, bfiGives hc, fun j hj => bfiW_getLsbD _ a c j hj⟩⟩

end Sys2Proof.Machine
end

section
/-! SUPPORT. Vector instructions that move, select or combine elements (R165, R170, R172, R173, R182-R184): the elements of a merged
result, how an instruction of S3 with ready operands completes, and what each of them gives. -/

namespace Sys2Proof.Machine

/-! ### Elements -/

/-- An element is a number of its width (R162). -/
theorem lane_lt (w : Nat) {n : Nat} (x : BitVec n) (j : Nat) : lane w x j < 2 ^ w := Nat.mod_lt _ (Nat.two_pow_pos w)

@[simp] theorem lane_mod (w : Nat) {n : Nat} (x : BitVec n) (j : Nat) : lane w x j % 2 ^ w = lane w x j := Nat.mod_mod _ _

theorem lane_and (w : Nat) {n : Nat} (x y : BitVec n) (j : Nat) : lane w (x &&& y) j = lane w x j &&& lane w y j := by
  rw [lane, BitVec.ushiftRight_and_distrib, BitVec.toNat_and, Nat.and_mod_two_pow]; rfl

theorem lane_or (w : Nat) {n : Nat} (x y : BitVec n) (j : Nat) : lane w (x ||| y) j = lane w x j ||| lane w y j := by
  rw [lane, BitVec.ushiftRight_or_distrib, BitVec.toNat_or, Nat.or_mod_two_pow]; rfl

theorem lane_xor (w : Nat) {n : Nat} (x y : BitVec n) (j : Nat) : lane w (x ^^^ y) j = lane w x j ^^^ lane w y j := by
  rw [lane, BitVec.ushiftRight_xor_distrib, BitVec.toNat_xor, Nat.xor_mod_two_pow]; rfl

/-- An element that lies inside the bits kept of a number is a digit of that number. -/
theorem lane_ofNat (w n x j : Nat) (h : w * (j + 1) ≤ n) : lane w (BitVec.ofNat n x) j = x / 2 ^ (w * j) % 2 ^ w := by
  refine Nat.eq_of_testBit_eq fun i => ?_
  rw [lane, BitVec.toNat_ushiftRight, BitVec.toNat_ofNat, Nat.shiftRight_eq_div_pow]
  simp only [Nat.testBit_mod_two_pow, Nat.testBit_div_two_pow]
  by_cases hi : i < w
  · have : i + w * j < n := by rw [Nat.mul_succ] at h; omega
    simp [this]
  · simp [hi]

/-- Digit `j` of the number made of a list of digits is entry `j` of the list. -/
theorem ofLanes_digit (w : Nat) (l : List Nat) (j : Nat) (hj : j < l.length) :
    ofLanes w l / 2 ^ (w * j) % 2 ^ w = l[j] % 2 ^ w := by
  induction l generalizing j with
  | nil => exact absurd hj (Nat.not_lt_zero j)
  | cons x xs ih =>
    cases j with
    | zero => simp [ofLanes]
    | succ j =>
      have tail : ofLanes w (x :: xs) / 2 ^ w = ofLanes w xs := by
        rw [ofLanes, Nat.add_mul_div_left _ _ (Nat.two_pow_pos w), Nat.div_eq_of_lt (Nat.mod_lt _ (Nat.two_pow_pos w)), Nat.zero_add]
      rw [Nat.mul_succ, Nat.add_comm, Nat.pow_add, ← Nat.div_div_eq_div_mul, tail]
      exact ih j (Nat.lt_of_succ_lt_succ hj)

/-- R165: an element of a merged result is the new one where the mask bit of its lane is 1, and the old one elsewhere. -/
theorem lane_mergeLanes (w : Nat) (mask : Word) (old : Vec) (res : List Nat) (j : Nat) (hj : j < res.length)
    (hn : res.length ≤ 2048 / w) :
    lane w (mergeLanes w mask old res) j = if mask.getLsbD (w * j / 32) then res[j] % 2 ^ w else lane w old j := by
  have inside : w * (j + 1) ≤ 2048 := (Nat.mul_le_mul_left w (hj.trans_le hn)).trans (Nat.mul_div_le 2048 w)
  rw [mergeLanes, lane_ofNat _ _ _ _ inside, ofLanes_digit _ _ _ (by simpa using hj), List.getElem_mapIdx, apply_ite (· % 2 ^ w),
    lane_mod]

/-- Elements without flags leave no flag (R166). -/
theorem maskedFlags_zero (w : Nat) (mask : Word) (rs : List (Nat × Word)) (h : ∀ r ∈ rs, r.2 = 0) : maskedFlags w mask rs = 0 := by
  have zeros : (rs.mapIdx fun j r => if mask.getLsbD (w * j / 32) then r.2 else 0) = List.replicate rs.length 0 := by
    refine List.ext_getElem (by simp) fun j hj _ => ?_
    simp [h _ (List.getElem_mem (by simpa using hj))]
  rw [maskedFlags, zeros]
  induction rs.length with
  | zero => rfl
  | succ n ih => rwa [List.replicate_succ, List.foldl_cons, BitVec.or_self]

/-! ### Windows taken -/

/-- Taking windows leaves what slots read (R164). -/
@[simp] theorem State.taken_view (s : State) (srcs : List VOp) : (s.taken srcs).core.act.view = s.core.act.view := by
  obtain ⟨fd, wi, h⟩ := Core.takeWindows_eq (srcs.flatMap feedOf).eraseDups s.core
  simp only [State.taken, State.modCore, Core.useWindows, h]
  rfl

@[simp] theorem State.taken_maskOf (s : State) (srcs : List VOp) (g : Guard) : (s.taken srcs).maskOf g = s.maskOf g := by
  simp only [State.maskOf, State.taken_view]

@[simp] theorem State.taken_src (s : State) (srcs : List VOp) (x : Src) : (s.taken srcs).src x = s.src x := by
  simp only [State.src, State.taken_view]

@[simp] theorem State.taken_oldV (s : State) (srcs : List VOp) (d : VOp) : (s.taken srcs).core.oldV d = s.core.oldV d := by
  simp only [Core.oldV, State.taken_view]

/-! ### Completion in S3 -/

/-- Counting a vector instruction changes event counters only, which a committing slot leaves open (R438). -/
theorem Finishes.countVec {u t : State} {sl : Nat} (h : Finishes sl u t) : Finishes sl u (countVec t) := by
  have counted : ∃ ev, Machine.countVec t = { t with core := { t.core with ev := ev } } := by
    unfold Machine.countVec
    split
    · split
      · exact ⟨_, rfl⟩
      · exact ⟨t.core.ev, rfl⟩
    · exact ⟨t.core.ev, rfl⟩
  obtain ⟨ev, hev⟩ := counted
  obtain ⟨ph, sn, wi, st, vc, _, tu, ht⟩ := h
  exact ⟨ph, sn, wi, st, vc, ev, tu, by rw [hev, ht]⟩

theorem kept_countVec (s v : State) (h : Kept s v) : Kept s (countVec v) := by
  unfold countVec
  split
  · split
    · exact kept_count s v 23 1 h
    · exact h
  · exact h

theorem kept_givesV (s v : State) (srcs : List VOp) (lat : Nat) (d : VOp) (x : Vec) (extra : List RegWrite) (flags : Word)
    (h : Kept s v) : Kept s (v.givesV srcs lat d x extra flags) := by
  have taken : Kept s (v.taken srcs) := kept_modCore s v _ h
  cases d with
  | v i => exact kept_flying s _ 3 _ _ _ _ taken
  | f i => exact kept_flying s _ 3 _ _ _ _ (kept_modCore s _ _ taken)
  | l i => exact kept_flying s _ 3 _ _ _ _ taken
  | none => exact kept_flying s _ 3 _ _ _ _ taken

/-- An instruction of S3 whose operation commits with the effect `u` completes with it (R38). -/
theorem completes_of_vecOp {i : Instr} {s u : State} {f : State → State} (hi : exec i s = vecOp f s) (hf : f s = commit 3 u)
    (k : Kept s u) : Completes i s 3 u := by
  refine ⟨_, hi, ?_⟩
  rw [hf, show keep s (countVec (commit 3 u)) = countVec (commit 3 u) from kept_countVec s _ (kept_commit s u 3 k)]
  exact (finishes_commit 3 u).countVec

/-- R164: with every source readable and the destination ready the operation runs on the sources' values, their windows taken. -/
theorem withV_ready (srcs : List VOp) (d : VOp) (go : List Vec → State → State) (s : State) (vals : List Vec)
    (hr : srcs.map s.core.readV = vals.map .val) (hd : s.core.dstReady d = .ok) : withV srcs d go s = go vals (s.taken srcs) := by
  simp only [withV, hr, hd, List.filterMap_map, List.map_map, List.any_map]
  simp [Function.comp_def, State.taken]

/-- Landing a vector result on the taken windows is the effect that the statements have (R44, R163, R164). -/
theorem landV_eq (lat : Nat) (srcs : List VOp) (d : VOp) (x : Vec) (extra : List RegWrite) (flags : Word) (s : State) :
    landV lat (srcs.flatMap feedOf) d x extra flags (s.taken srcs) = commit 3 (s.givesV srcs lat d x extra flags) := by
  cases d <;> rfl

/-- The common form of the element instructions without flags: `e` gives element `j` from the sources' values and the state. -/
def landElems (lat w : Nat) (srcs : List VOp) (d : VOp) (g : Guard) (e : List Vec → State → Nat → Nat) : State → State :=
  withV srcs d fun vs s => landLanes lat w (srcs.flatMap feedOf) d (s.maskOf g) (s.core.oldV d)
    ((List.range (2048 / w)).map fun j => (e vs s j, 0)) s

/-- With ready operands such an operation commits with the merge of its elements in flight (R165). -/
theorem landElems_ready (lat w : Nat) (srcs : List VOp) (d : VOp) (g : Guard) (e : List Vec → State → Nat → Nat) (s : State)
    (vals : List Vec) (hr : srcs.map s.core.readV = vals.map .val) (hd : s.core.dstReady d = .ok) :
    landElems lat w srcs d g e s = commit 3 (s.givesV srcs lat d
      (mergeLanes w (s.maskOf g) (s.core.oldV d) ((List.range (2048 / w)).map (e vals (s.taken srcs)))) [] 0) := by
  rw [landElems, withV_ready _ _ _ _ _ hr hd, landLanes, maskedFlags_zero _ _ _ (by simp), landV_eq, List.map_map,
    State.taken_maskOf, State.taken_oldV]
  rfl

/-- An instruction of this form with ready operands completes with the merge of its elements (R165). -/
theorem merges_of_landElems {i : Instr} {s : State} {lat w : Nat} {srcs : List VOp} {d : VOp} {g : Guard}
    {e : List Vec → State → Nat → Nat} (hi : exec i s = vecOp (landElems lat w srcs d g e) s) {vals : List Vec}
    (hr : srcs.map s.core.readV = vals.map .val) (hd : s.core.dstReady d = .ok) {f : Nat → Nat}
    (hf : ∀ j < 2048 / w, e vals (s.taken srcs) j % 2 ^ w = f j % 2 ^ w) : Merges i s srcs lat w d (s.maskOf g) f := by
  refine ⟨_, completes_of_vecOp hi (landElems_ready _ _ _ _ _ _ _ _ hr hd) (kept_givesV s s _ _ _ _ _ _ (kept_self s)),
    fun j hj => ?_⟩
  rw [lane_mergeLanes _ _ _ _ _ (by simpa using hj) (by simp), List.getElem_map, List.getElem_range, hf j hj]

/-! ### What the instructions give -/

/-- An integer type is no floating one (R162). -/
theorem fmtOf_of_isInt {t : ElemT} (h : t.isInt = true) : fmtOf t = none := by
  cases t with
  | f32 | bf16 | f16 => cases h
  | i32 | i16 | i8 => rfl

/-- A one-source element instruction on an integer type. -/
theorem merges_of_elem1 {i : Instr} {s : State} {lat : Nat} {rounds : Bool} {r : VecU} {flt : FEnv → Nat → Nat → Nat × Word}
    {int : Nat → Nat → Nat → Nat} {a : Vec} (hi : exec i s = elem1 lat rounds r flt int s) (ht : r.t.isInt = true)
    (ha : s.core.readV r.a = .val a) (hd : s.core.dstReady r.d = .ok) {f : Nat → Nat}
    (hf : ∀ j, int r.t.width j (lane r.t.width a j) % 2 ^ r.t.width = f j % 2 ^ r.t.width) :
    Merges i s [r.a] lat r.t.width r.d (s.maskOf r.g) f := by
  have form : exec i s = vecOp (landElems lat r.t.width [r.a] r.d r.g fun vs _ j =>
      int r.t.width j (lane r.t.width (vs.getD 0 0) j) % 2 ^ r.t.width) s := by
    rw [hi, elem1, fmtOf_of_isInt ht]
    simp only [landElems, List.flatMap_singleton]
  exact merges_of_landElems form (vals := [a]) (by simp [ha]) hd fun j _ => (Nat.mod_mod _ _).trans (hf j)

/-- A two-source instruction merged by 32-bit lane. -/
theorem merges_of_laneOp {i : Instr} {s : State} {d x y : VOp} {g : Guard} {op : State → Nat → Nat → Nat → Nat} {a b : Vec}
    (hi : exec i s = laneOp d x y g op s) (ha : s.core.readV x = .val a) (hb : s.core.readV y = .val b)
    (hd : s.core.dstReady d = .ok) {f : Nat → Nat} (hf : ∀ j, op (s.taken [x, y]) j (lane 32 a j) (lane 32 b j) = f j) :
    Merges i s [x, y] 2 32 d (s.maskOf g) f := by
  have form : exec i s = vecOp (landElems 2 32 [x, y] d g fun vs s j =>
      op s j (lane 32 (vs.getD 0 0) j) (lane 32 (vs.getD 1 0) j)) s := by
    simp only [hi, laneOp, landElems, List.flatMap_cons, List.flatMap_nil, List.append_nil]
  exact merges_of_landElems form (vals := [a, b]) (by simp [ha, hb]) hd fun j _ => congrArg (· % 2 ^ 32) (hf j)

/-- R170: VABS on an integer element gives its absolute value; the least value has none in its width and stays itself. -/
theorem ite_neg_eq_natAbs_sInt (w x : Nat) (h : x < 2 ^ w) : (if sInt w x < 0 then 2 ^ w - x else x) = (sInt w x).natAbs := by
  have cast : (2 : Int) ^ w = (2 ^ w : Nat) := by push_cast; rfl
  rw [sInt, Nat.mod_eq_of_lt h, cast, Int.emod_eq_of_lt (by omega) (by omega)]
  split
  · rw [if_neg (by omega)]; omega
  · rw [if_pos (by omega)]; omega

/-- VPERM with ready operands (R182). -/
theorem merges_vperm (s : State) (r : VecF) (a b : Vec) (ha : s.core.readV r.a = .val a) (hb : s.core.readV r.b = .val b)
    (hd : s.core.dstReady r.d = .ok) :
    Merges (.vperm r) s [r.a, r.b] 4 r.t.width r.d (s.maskOf r.g) fun j =>
      if lane r.t.width b j < 2048 / r.t.width then lane r.t.width a (lane r.t.width b j) else 0 := by
  have form : exec (.vperm r) s = vecOp (landElems 4 r.t.width [r.a, r.b] r.d r.g fun vs _ j =>
      if 2048 / r.t.width ≤ lane r.t.width (vs.getD 1 0) j then 0
      else lane r.t.width (vs.getD 0 0) (lane r.t.width (vs.getD 1 0) j)) s := by
    simp only [landElems, List.flatMap_cons, List.flatMap_nil, List.append_nil]
    rfl
  refine merges_of_landElems form (vals := [a, b]) (by simp [ha, hb]) hd fun j _ => ?_
  simp only [List.getD_cons_zero, List.getD_cons_succ, ← Nat.not_lt, ite_not]

/-- VBC with a ready destination (R183). -/
theorem merges_vbc (s : State) (r : VscF) (hd : s.core.dstReady r.d = .ok) :
    Merges (.vbc r) s [] 2 r.t.width r.d (s.maskOf r.g) fun _ => (s.src r.src).toNat := by
  have form : exec (.vbc r) s = vecOp (landElems 2 r.t.width [] r.d r.g fun _ s _ => (s.src r.src).toNat % 2 ^ r.t.width) s := by
    simp only [landElems, List.map_const', List.length_range]
    rfl
  exact merges_of_landElems form (vals := []) rfl hd fun j _ => by rw [State.taken_src, Nat.mod_mod]

/-- Settles O25: each instruction is of the common form, and its elements are those of R170, R172, R173 and R182-R184. -/
theorem vectorMoveResults : Obligations.VectorMoveResults := by
  intro s a b
  refine ⟨fun r ht ha hd => ⟨?vabs, ?vneg, ?vidx⟩, fun r ha hb hd => ?vsel, fun r ha hb hd => ⟨?vand, ?vor, ?vxor⟩,
    fun r ha hb hd => merges_vperm s r a b ha hb hd, merges_vbc s⟩
  case vabs =>
    have arm : exec (.vabs r) s = execVabs r s := rfl
    exact merges_of_elem1 arm ht ha hd fun j => by rw [ite_neg_eq_natAbs_sInt _ _ (lane_lt _ a j)]
  case vneg =>
    have arm : exec (.vneg r) s = execVneg r s := rfl
    exact merges_of_elem1 arm ht ha hd fun _ => rfl
  case vidx =>
    have arm : exec (.vidx r) s = execVidx r s := rfl
    exact merges_of_elem1 arm ht ha hd fun _ => rfl
  case vsel =>
    have arm : exec (.vsel r) s = execVsel r s := rfl
    exact merges_of_laneOp arm ha hb hd fun _ => by rw [State.taken_view]; rfl
  case vand =>
    have arm : exec (.vand r) s = execVand r s := rfl
    exact merges_of_laneOp arm ha hb hd fun j => (lane_and 32 a b j).symm
  case vor =>
    have arm : exec (.vor r) s = execVor r s := rfl
    exact merges_of_laneOp arm ha hb hd fun j => (lane_or 32 a b j).symm
  case vxor =>
    have arm : exec (.vxor r) s = execVxor r s := rfl
    exact merges_of_laneOp arm ha hb hd fun j => (lane_xor 32 a b j).symm

end Sys2Proof.Machine
end

section
/-! SUPPORT. MCFG, MWT and MCNT (R191, R212, R218, R219): a slot that waits as the statements have it, the engine registers that MCFG
leaves, and the value that MCNT lands. -/

namespace Sys2Proof.Machine

/-! ### Waiting -/

/-- A waiting tick after that of the issue is a frozen one (R73, R74). -/
theorem stall_frzt {s : State} {b : Bundle} (hb : s.core.act.bun = some b) :
    (stall s).core.act.frzt = s.core.act.frzt + b2n (decide (b.tick < s.time)) := by
  simp only [stall, hb]
  cases decide (b.tick < s.time) <;> rfl

/-- A slot instruction whose operation waits is one that the statements call waiting (R74). -/
theorem waits_of {i : Instr} {s : State} (h : exec i s = .next (keep s (stall s))) : Waits i s := by
  have frozen (b : Bundle) (hb : s.core.act.bun = some b) :
      (keep s (stall s)).core.act.frzt = s.core.act.frzt + b2n (decide (b.tick < s.time)) := stall_frzt hb
  obtain ⟨ev, fr, ag, hc⟩ := stall_core s
  rw [hc] at h frozen
  exact ⟨_, h, rfl, rfl, rfl, rfl, fun _ => rfl, fun _ => rfl, frozen⟩

/-! ### MCFG -/

/-- The bits that MCFG may write in a register which it may name (R191, R212). -/
theorem gregMask_of_engineRegOk {n : Nat} (h : engineRegOk n = true) :
    gregMask n = if n = 0 then 0x77 else if n = 1 ∨ n = 2 then 0x7FFFFFFFF else if n = 3 then 0x1F1F1F1F
      else if n = 4 then 7 else 0xFFFF00FF := by
  unfold gregMask
  by_cases h8 : 8 ≤ n
  · rw [if_pos h8]
  · have h4 : n ≤ 4 := by simpa [engineRegOk, h8] using h
    interval_cases n <;> rfl

/-- The engine registers that MCFG leaves (R212). -/
def mcfgRegs (r : McfgF) (s : State) : Vector Word 16 :=
  let one := s.core.tile.greg.set r.reg (s.src r.a &&& gregMask r.reg.val)
  if r.pair then one.set (Fin.ofNat 16 (r.reg.val + 1)) (s.src r.b &&& gregMask (r.reg.val + 1)) else one

/-- MCFG writes the register it names and, with PAIR, the next one (R212). -/
theorem mcfgRegs_getElem (r : McfgF) (s : State) (n : Fin 16) (hp : r.pair = true → r.reg.val < 15) :
    (mcfgRegs r s)[n] = if n = r.reg then s.src r.a &&& gregMask n.val
      else if r.pair = true ∧ n.val = r.reg.val + 1 then s.src r.b &&& gregMask n.val else s.core.tile.greg[n] := by
  obtain rfl | other := eq_or_ne n r.reg
  · rw [if_pos rfl, mcfgRegs]
    split
    case isTrue pair =>
      have past : (r.reg.val + 1) % 16 ≠ r.reg.val := by have := hp pair; omega
      simp [past]
    case isFalse => simp
  · have first : r.reg.val ≠ n.val := fun h => other (Fin.ext h.symm)
    rw [if_neg other, mcfgRegs]
    split
    case isTrue pair =>
      have next : (r.reg.val + 1) % 16 = r.reg.val + 1 := Nat.mod_eq_of_lt (by have := hp pair; omega)
      by_cases h : n.val = r.reg.val + 1
      · simp [pair, next, h]
      · simp [pair, next, h, first, Ne.symm h]
    case isFalse pair => simp [pair, first]

/-- MCFG under a true guard commits with the registers it leaves (R190, R212). -/
theorem completes_mcfg (r : McfgF) (s : State) (hg : s.guard r.g = true) :
    Completes (.mcfg r) s 4 (s.modCore fun c => { c with tile := { c.tile with greg := mcfgRegs r s } }) :=
  completes_of _ s _ 4 (exec_of_slotOp (f := fun s => commit 4
    (s.modCore fun c => { c with tile := { c.tile with greg := mcfgRegs r s } })) rfl hg) (kept_modCore s s _ (kept_self s))

/-! ### MWT -/

/-- MWT under a true guard (R218). -/
theorem exec_mwt (r : MwtF) (s : State) (hg : s.guard r.g = true) :
    exec (.mwt r) s = .next (keep s (if s.core.tile.ops.length ≤ r.n.val then
      commit 4 (s.modCore fun c => { c with tile := c.tile.cover r.n.val }) else stall s)) :=
  exec_of_slotOp (sl := 4) (g := r.g) (f := fun s => if s.core.tile.ops.length ≤ r.n.val then
    commit 4 (s.modCore fun c => { c with tile := c.tile.cover r.n.val }) else stall s) rfl hg

/-! ### MCNT -/

/-- The value that MCNT lands, by its selector (R219). -/
theorem mcntValue_eq (t : Tile) (a : Word) :
    mcntValue t a = if a.getLsbD 6 then t.greg[5]
      else if a.getLsbD 3 then ((List.range 8).map fun g => t.cntBefore (Fin.ofNat 32 (8 * (a.toNat / 16 % 4) + g))).sum
      else t.cntBefore (Fin.ofNat 32 (8 * (a.toNat / 16 % 4) + a.toNat % 8)) := by
  simp only [mcntValue, fld, List.sum_eq_foldl, Nat.reducePow, Nat.div_one]

/-- Settles O39: MCFG by the registers it leaves, MWT by its two ways to go, MCNT by the value that its selector names. -/
theorem tileControl : Obligations.TileControl := by
  intro s
  refine ⟨?mcfg, fun r hg => ?mwt, fun r hg => ?mcnt⟩
  case mcfg =>
    intro r hg hp fields ha hb
    refine ⟨mcfgRegs r s, completes_mcfg r s hg, fun n => ?_⟩
    rw [mcfgRegs_getElem r s n hp]
    split
    case isTrue h => rw [h, gregMask_of_engineRegOk ha]
    case isFalse =>
      split
      case isTrue h =>
        obtain ⟨pair, next⟩ := h
        rw [next, gregMask_of_engineRegOk (hb pair)]
      case isFalse => rfl
  case mwt =>
    split
    case isTrue h => exact completes_of _ s _ 4 (by rw [exec_mwt r s hg, if_pos h]) (kept_modCore s s _ (kept_self s))
    case isFalse h => exact waits_of (by rw [exec_mwt r s hg, if_neg h])
  case mcnt =>
    have given : Gives (.mcnt r) s 4 2 r.wb r.d (mcntValue s.core.tile (s.src r.a)) :=
      gives_of_slotOp (fun s => mcntValue s.core.tile (s.src r.a)) rfl hg
    rw [mcntValue_eq] at given
    exact given

end Sys2Proof.Machine
end

section
/-! SUPPORT. HSET, HWAIT, HREL and QFENCE (R277, R305-R307, R330): the handle that HSET arms, the value that HWAIT lands, and what the slot
of each does under a true guard. -/

namespace Sys2Proof.Machine

/-! ### HSET -/

/-- Arming sets EXP (R277). -/
@[simp] theorem Handle.arm_exp (h : Handle) (drain : Bool) (n : Nat) : (h.arm drain n).exp = n := by
  unfold Handle.arm
  split
  case isTrue zero => exact zero.symm
  case isFalse => rfl

/-- Arming clears ARR (R277). -/
@[simp] theorem Handle.arm_arr (h : Handle) (drain : Bool) (n : Nat) : (h.arm drain n).arr = 0 := by
  unfold Handle.arm
  split <;> rfl

/-- ERR is sticky (R276). -/
@[simp] theorem Handle.arm_err (h : Handle) (drain : Bool) (n : Nat) : (h.arm drain n).err = h.err := by
  unfold Handle.arm
  split <;> rfl

/-- The phase flips where arming enters FULL (R276, R277). -/
@[simp] theorem Handle.arm_ph (h : Handle) (drain : Bool) (n : Nat) : (h.arm drain n).ph = (h.ph ^^ (decide (n = 0) && !drain)) := by
  unfold Handle.arm
  split
  case isTrue zero => cases drain <;> simp [zero]
  case isFalse pos => simp [pos]

/-- The state that arming enters (R277). -/
@[simp] theorem Handle.arm_st (h : Handle) (drain : Bool) (n : Nat) : (h.arm drain n).st =
    if n = 0 then (if drain then .free else .full) else if drain then .draining else .filling := by
  unfold Handle.arm
  split <;> rfl

/-- The core in view with another handle at `i`. -/
def State.setHandle (s : State) (i : Fin 256) (h : Handle) : State := s.modCore fun c => { c with handles := c.handles.set i h }

/-- HSET under a true guard: the two checks in their order, then the armed handle (R305). -/
theorem exec_hset (r : HsetF) (s : State) (hg : s.guard r.g = true) :
    exec (.hset r) s = .next (keep s (
      if 2 ^ 32 ≤ (s.src r.n).toNat then trapAt 5 9 (s.src r.n) s
      else if s.core.handles[r.h].st = .filling ∨ s.core.handles[r.h].st = .draining then
        trapAt 5 9 (BitVec.ofNat 64 (s.core.handleWord r.h)) s
      else commit 5 (s.setHandle r.h (s.core.handles[r.h].arm r.drain (s.src r.n).toNat)))) := by
  rw [show exec (.hset r) s = execHset r s from rfl, execHset, slotOp_true _ _ _ _ hg]
  rfl

/-! ### HWAIT -/

/-- The word that HWAIT lands for a handle (R306). -/
def Handle.waitWord (h : Handle) : Word := BitVec.ofNat 64 (b2n h.err * 2 ^ 35 + b2n h.ph * 2 ^ 34 + HState.code h.st * 2 ^ 32 + h.arr)

/-- HWAIT under a true guard: a match lands the handle's word, after an acquire where it is FULL, and anything else waits (R306). -/
theorem exec_hwait (r : HwaitF) (s : State) (hg : s.guard r.g = true) :
    exec (.hwait r) s = .next (keep s (
      if s.core.handles[r.h].st = r.st ∧ s.core.handles[r.h].ph = r.ph then
        commit 5 ((if s.core.handles[r.h].st = .full then s.acquired else s).flying 5 1
          (some (s.core.handles[r.h].waitWord.setWidth 2048)) [] 0)
      else stall s)) := by
  rw [show exec (.hwait r) s = execHwait r s from rfl, execHwait, slotOp_true _ _ _ _ hg]
  rfl

/-- An acquire point at .stand, taken or not, changes the core in view only. -/
theorem kept_ite_acquired (s : State) (p : Prop) [Decidable p] : Kept s (if p then s.acquired else s) := by
  split
  · exact kept_modCtx s s _ (kept_self s)
  · exact kept_self s

/-! ### HREL and QFENCE -/

/-- HREL under a true guard commits with the handle FREE and nothing else of it changed (R277, R307). -/
theorem completes_hrel (r : HrelF) (s : State) (hg : s.guard r.g = true) :
    Completes (.hrel r) s 5 (s.setHandle r.h { s.core.handles[r.h] with st := .free }) :=
  completes_of _ s _ 5 (exec_of_slotOp (f := fun s => commit 5 (s.setHandle r.h { s.core.handles[r.h] with st := .free })) rfl hg)
    (kept_modCore s s _ (kept_self s))

/-- The fences that still have operations ahead of them, with the one that QFENCE enters, and the mark on the operations of the term engine
where it names that (R198, R312). -/
def fencesEntered (r : QmkF) (s : State) (c : Core) : Core :=
  { c with fences := s.core.fences.filter (fun f => f.aheadOf s) ++ [⟨r.qm, s.newId⟩],
           tile := if r.qm.getLsbD 4 then c.tile.fenced s.newId else c.tile }

/-- QFENCE under a true guard commits with its fence entered (R330). -/
theorem completes_qfence (r : QmkF) (s : State) (hg : s.guard r.g = true) :
    Completes (.qfence r) s 5 (s.drawn.modCore (fencesEntered r s)) :=
  completes_of _ s _ 5 (exec_of_slotOp (f := fun s => commit 5 (s.drawn.modCore (fencesEntered r s))) rfl hg)
    (kept_modCore s _ _ (kept_drawn s s (kept_self s)))

/-- Settles O43: HSET by its checks and the handle it arms, HWAIT by whether the handle matches, HREL and QFENCE by what they commit. -/
theorem handleInstructions : Obligations.HandleInstructions := by
  intro s
  refine ⟨fun r hg => ⟨fun big => ?range, fun fits busy => ?busy, fun fits idle => ?arm⟩, fun r hg => ?hwait,
    fun r hg => completes_hrel r s hg,
    fun r hg => ⟨_, fun f hf => (List.mem_filter.1 hf).1, completes_qfence r s hg⟩⟩
  case range => exact traps_of _ s 5 9 _ (by rw [exec_hset r s hg, if_pos big])
  case busy => exact traps_of _ s 5 9 _ (by rw [exec_hset r s hg, if_neg fits.not_ge, if_pos busy])
  case arm =>
    have notBusy : ¬(s.core.handles[r.h].st = .filling ∨ s.core.handles[r.h].st = .draining) := by
      obtain h | h := idle <;> rw [h] <;> decide
    refine ⟨s.core.handles[r.h].arm r.drain (s.src r.n).toNat,
      completes_of _ s _ 5 (by rw [exec_hset r s hg, if_neg fits.not_ge, if_neg notBusy]; rfl) (kept_modCore s s _ (kept_self s)), ?_⟩
    have zero : s.src r.n = 0#64 ↔ (s.src r.n).toNat = 0 := BitVec.toNat_eq
    simp [zero]
  case hwait =>
    dsimp only
    split
    case isTrue matched =>
      exact completes_of _ s _ 5 (by rw [exec_hwait r s hg, if_pos matched]; rfl) (kept_flying s _ _ _ _ _ _ (kept_ite_acquired s _))
    case isFalse other => exact waits_of (by rw [exec_hwait r s hg, if_neg other])

end Sys2Proof.Machine
end
